-- ==== Sys2Proof/Word.lean ====
section
/-! DEFINITION. The word types of the HJ-416: bytes, 16-bit checks, the 32-bit seal and the 32-bit sensor
packet header. Counts, sizes and numbers that are only compared and counted are plain `Nat`s in the model. -/

namespace Sys2Proof

/-- A byte of a record, a character of the control port, a byte on a lane. -/
abbrev Byte := BitVec 8

/-- The running value of the 16-bit record check and payload check (section 10.1). -/
abbrev Check := BitVec 16

/-- The running seal of a SEALED route (R59). -/
abbrev Seal := BitVec 32

/-- A sensor packet header as one 32-bit value (R183). -/
abbrev Header := BitVec 32

end Sys2Proof
end

