-- ==== Sys2Proof/Syntax.lean ====
section
/-! DEFINITION. The commands of the block: one constructor per row of spec/opcode_table.json, in the table's
order. Each row is one event of the part, taken whole (section 00.5.5). An execution row (UNKNOWN_COMMAND to
COUNTERS_READ) has no operand: the record it executes, with its source and arguments, is the one that the
arbiter takes from an inbox (R153), where CHARACTER_RECEIVED or REMOTE_COMMAND_RECORD delivered it
(log entry 6). -/

namespace Sys2Proof

/-- The levels of the three strap pins, sampled at a part reset (R128, R143); `true` is high. -/
structure Straps where
  rateA : Bool
  rateB : Bool
  autoTrain : Bool
  deriving DecidableEq, Repr

/-- The rows of spec/opcode_table.json. -/
inductive Instr where
  /-- The lane layer of a port reports alignment achieved (R2). -/
  | alignmentAchieved (port : Fin 4)
  /-- The lane layer of a port reports alignment lost (R5). -/
  | alignmentLost (port : Fin 4)
  /-- A packet header arrives at a port, as the 32-bit value of R183 (R9). -/
  | headerEvent (port : Fin 4) (header : Header)
  /-- The lane layer ends the packet in reception at a port (R12). -/
  | endEvent (port : Fin 4)
  /-- The frame idle timer of a route runs out (R41). -/
  | frameIdleExpiry (route : Fin 64)
  /-- A character arrives on CP_RXD, with the mark whether its stop bit was found (R143, R146). -/
  | characterReceived (character : Byte) (stopBit : Bool)
  /-- The gap timer runs out (R147). -/
  | gapAbort
  /-- A transmission on CP_TXD completes; the strap levels count if a part reset is taken (R156, R162). -/
  | controlPortCompletion (straps : Straps)
  /-- The executor takes a record whose code names no command (R154). -/
  | unknownCommand
  /-- The executor takes an IDENTIFY record (R161). -/
  | identify
  /-- The executor takes a CLAIM record (R158). -/
  | claim
  /-- The executor takes a DROP record (R159). -/
  | drop
  /-- The executor takes a LEASE_TIME record (R159). -/
  | leaseTime
  /-- The executor takes a RESET_PART record (R162). -/
  | resetPart
  /-- The executor takes a PORT_SET record (R15). -/
  | portSet
  /-- The executor takes a PORT_STATUS record (R16). -/
  | portStatus
  /-- The executor takes a ROUTE_READ record (R27). -/
  | routeRead
  /-- The executor takes a ROUTE_WRITE record (R29). -/
  | routeWrite
  /-- The executor takes a ROUTE_ENABLE record (R31). -/
  | routeEnable
  /-- The executor takes a ROUTE_DISABLE record (R33). -/
  | routeDisable
  /-- The executor takes a TABLE_SCAN record (R36). -/
  | tableScan
  /-- The executor takes a HOLD record (R89). -/
  | hold
  /-- The executor takes a RELEASE record (R90). -/
  | release
  /-- The executor takes a STEP record (R91). -/
  | step
  /-- The executor takes a HOLDPOINT_SET record (R96). -/
  | holdpointSet
  /-- The executor takes a HOLDPOINT_CLEAR record (R97). -/
  | holdpointClear
  /-- The executor takes a POOL_STATUS record (R84). -/
  | poolStatus
  /-- The executor takes a TRUNK_STATUS record (R140). -/
  | trunkStatus
  /-- The executor takes a TRUNK_HALT record (R136). -/
  | trunkHalt
  /-- The executor takes a TRUNK_START record (R137). -/
  | trunkStart
  /-- The executor takes a TRUNK_RETRAIN record (R138). -/
  | trunkRetrain
  /-- The executor takes a NOTICE_ACK record (R173). -/
  | noticeAck
  /-- The executor takes a NOTICE_REPLAY record (R175). -/
  | noticeReplay
  /-- The executor takes a NOTICE_MASK record (R176). -/
  | noticeMask
  /-- The executor takes a NOTICE_ROUTE record (R177). -/
  | noticeRoute
  /-- The executor takes a COUNTERS_READ record (R179). -/
  | countersRead
  /-- A reverse record of kind 0x30 arrives; the bytes after its kind byte (R118, R185). -/
  | creditGrant (rest : List Byte)
  /-- A reverse record of kind 0x31 arrives; the bytes after its kind byte (R149, R185). -/
  | remoteCommandRecord (rest : List Byte)
  /-- A reverse record of kind 0x32 arrives; the bytes after its kind byte (R130, R185). -/
  | acknowledgement (rest : List Byte)
  /-- A reverse record of an unknown kind, or too short to hold its kind, arrives; all its bytes (R185). -/
  | unknownReverseRecord (record : List Byte)
  /-- The lane layer recovers the partner's signal on TRUNK_RX (R130). -/
  | reverseAlignment
  /-- The lane layer reports that reverse alignment has been lost (R134). -/
  | signalLoss
  /-- The train timer runs out (R132). -/
  | trainTimerExpiry
  /-- The retry timer runs out (R133). -/
  | retryTimerExpiry
  /-- A transmission on TRUNK_TX completes; the strap levels count if a part reset is taken (R114, R162). -/
  | transmissionCompletion (straps : Straps)
  /-- The stall timer runs out (R120). -/
  | stallExpiry
  /-- The lease timer runs out (R160). -/
  | leaseExpiry
  /-- The grace timer of a pending part reset runs out, with the strap levels (R162). -/
  | graceExpiry (straps : Straps)
  /-- Power-on ends, with the strap levels and whether RESET_N is low (R163). -/
  | powerOn (straps : Straps) (resetLow : Bool)
  /-- RESET_N goes low (R163). -/
  | resetNAsserted
  /-- RESET_N returns high, with the strap levels (R163). -/
  | resetNReleased (straps : Straps)
  /-- Bytes of the packet in reception arrive at a port (R12). -/
  | bytesReceived (port : Fin 4) (bytes : List Byte)
  deriving DecidableEq, Repr

end Sys2Proof
end

