-- ==== Sys2Proof/Config.lean ====
section
/-! DEFINITION. The figures of section 00.7 that the rules repeat, and the part's own identity (R161).
The spec leaves no value of a step open (log entry 10), so there is no free value here. -/

namespace Sys2Proof.Config

/-- Segments in the pool (R66). -/
abbrev segmentCount : Nat := 2048

/-- Bytes of one segment (R66). -/
abbrev segmentBytes : Nat := 256

/-- Descriptors of the trunk queue (R72). -/
abbrev descriptorCount : Nat := 1024

/-- The largest accepted payload length of a packet (R9). -/
abbrev maxPayload : Nat := 8192

/-- The largest credit balance (R110, R118). -/
abbrev maxCredits : Nat := 1023

/-- The most notices the notice queue holds (R166). -/
abbrev noticeCapacity : Nat := 16

/-- The value at which every counter saturates (R178). -/
abbrev counterMax : Nat := 4294967295

/-- The value at which the lost count and the bytes received so far stay (R12, R166), and the largest
epoch and notice sequence (R127, R166). -/
abbrev max16 : Nat := 65535

/-- The gap limit of the control port, in ms (R144). -/
abbrev gapLimit : Nat := 4

/-- The train limit, in ms (R126). -/
abbrev trainLimit : Nat := 20

/-- The retry interval, in ms (R126). -/
abbrev retryInterval : Nat := 100

/-- The credit wait limit, in ms (R120). -/
abbrev creditWaitLimit : Nat := 50

/-- The reset grace, in ms (R162). -/
abbrev resetGrace : Nat := 10

/-- The lease time after part reset, in ms (R157). -/
abbrev defaultLeaseTime : Nat := 2000

/-- The part code that IDENTIFY reports (R161). -/
abbrev partCode : Nat := 0x0416

/-- The silicon revision that IDENTIFY reports (R161). -/
abbrev siliconRevision : Nat := 1

end Sys2Proof.Config
end

