-- ==== Sys2Proof/Machine/State.lean ====
section
/-! DEFINITION. The state of the HJ-416 as plain data, block by block as chapters 1 to 9 hold it, with the reset
value of each item, and `State.reset`: the part right after a POWER_ON part reset (log entry 2). -/

namespace Sys2Proof.Machine

/-! ## Shared -/

/-- The two sources of command records, also the values of the lease holder, the notice destination and the
arbiter memory (section 00.2). LOCAL is the control port, REMOTE the trunk reverse direction. -/
inductive Source where
  | localSource
  | remoteSource
  deriving DecidableEq, Repr

/-- A timer: stopped, or running for the duration in ms it was started with. When a running timer runs out is
an event of the environment (log entry 9). -/
inductive Timer where
  | stopped
  | running (limit : Nat)
  deriving DecidableEq, Repr

/-- Whether the timer is running. -/
def Timer.isRunning : Timer → Bool
  | .stopped => false
  | .running _ => true

/-- A saturating 32-bit counter (R178). -/
abbrev Counter := Nat

/-! ## Chapter 1: ingress receivers -/

/-- Port state (R1). -/
inductive PortState where
  | off
  | seeking
  | active
  | lost
  deriving DecidableEq, Repr

/-- Lane count of a port: 1, 2 or 4 (R1). -/
inductive Lanes where
  | one
  | two
  | four
  deriving DecidableEq, Repr

/-- Disposition of a packet in reception (R1). -/
inductive Disposition where
  | toRoute
  | unrouted
  | unknownKind
  | headerError
  deriving DecidableEq, Repr

/-- The three header fields of a packet whose header passed its check (R1, R183). -/
structure PacketHeader where
  channel : Fin 16
  code : Nat
  length : Nat
  deriving DecidableEq, Repr

/-- The packet in reception (R1, R12). `header` is absent when the header failed its check. `check` runs over
the payload bytes; `tail` holds back the last two bytes delivered, which may be the packet's payload check;
`head` keeps the first six payload bytes, a mark's fields (R13); `disabledMeanwhile` marks a packet that
ROUTE_DISABLE turned UNROUTED, whose UNROUTED count moves at its end (R14). The last three fields are the model's own
(DESIGN CHOICE, log entry 3). -/
structure Reception where
  header : Option PacketHeader
  disposition : Disposition
  received : Nat
  long : Bool
  check : Check
  tail : List Byte
  head : List Byte
  disabledMeanwhile : Bool
  deriving DecidableEq, Repr

/-- The nine counters of a port, in the order of R17. -/
structure PortCounters where
  packets : Counter := 0
  headerErrors : Counter := 0
  unknownKind : Counter := 0
  unrouted : Counter := 0
  payloadErrors : Counter := 0
  longLines : Counter := 0
  markErrors : Counter := 0
  cutPackets : Counter := 0
  alignLosses : Counter := 0
  deriving DecidableEq, Repr

/-- An ingress receiver (R1). -/
structure Port where
  state : PortState
  lanes : Lanes
  aligned : Bool
  reception : Option Reception
  counters : PortCounters
  deriving DecidableEq, Repr

/-- A receiver after part reset (R1). -/
def Port.reset : Port :=
  { state := .off, lanes := .four, aligned := false, reception := none, counters := {} }

/-! ## Chapters 2, 3 and 5: the route table -/

/-- Mode of a route (R19, R24). -/
inductive Mode where
  | plain
  | sealed
  deriving DecidableEq, Repr

/-- Damage policy of a route (R19, R57). -/
inductive DamagePolicy where
  | forward
  | abort
  deriving DecidableEq, Repr

/-- The eight configuration fields of a route (R19). `overrideCode` is the override, absent for NONE. -/
structure RouteConfig where
  trunkChannel : Nat
  mode : Mode
  filter : List Nat
  overrideCode : Option Nat
  policy : DamagePolicy
  cap : Nat
  floor : Nat
  idleLimit : Nat
  deriving DecidableEq, Repr

/-- Kind of a hold point (R20). -/
inductive HoldKind where
  | force
  | tag
  deriving DecidableEq, Repr

/-- Condition of a hold point with its condition value (R20). -/
inductive HoldCondition where
  | frameNumber (number : Nat)
  | content (code : Nat)
  | damage
  deriving DecidableEq, Repr

/-- A hold point (R20). -/
structure HoldPoint where
  kind : HoldKind
  condition : HoldCondition
  armed : Bool
  deriving DecidableEq, Repr

/-- Gate state of a route (R86). `opened` is the spec's OPEN. -/
inductive Gate where
  | disabled
  | opened
  | closing
  | shut
  | stepping
  deriving DecidableEq, Repr

/-- The open-frame record (R21). `sealValue` is the running seal, present when the route was SEALED at the
frame's admission (R59). -/
structure OpenFrame where
  number : Nat
  declaredLines : Nat
  declaredBytes : Nat
  received : Nat
  forwarded : Nat
  damagedLines : Bool
  overrun : Bool
  sealValue : Option Seal
  deriving DecidableEq, Repr

/-- The line in assembly: the packet's content code, its segment count and the payload written so far, the
descriptor in state ASSEMBLY (R21, R53, R72). -/
structure LineInAssembly where
  code : Nat
  segments : Nat
  payload : List Byte
  deriving DecidableEq, Repr

/-- The assembly state with what it holds (R21, R39). Only an ASSEMBLING route has an open-frame record, may have
a line in assembly, and holds a closing reservation, so the three are carried by that value alone. -/
inductive Assembly where
  | idle
  | assembling (frame : OpenFrame) (line : Option LineInAssembly)
  | skipping
  deriving DecidableEq, Repr

/-- The twenty-two counters of a route, in the order of R65. -/
structure RouteCounters where
  framesAdmitted : Counter := 0
  framesClosed : Counter := 0
  heldOff : Counter := 0
  refused : Counter := 0
  aborted : Counter := 0
  abortedTruncated : Counter := 0
  abortedIdle : Counter := 0
  abortedStarved : Counter := 0
  abortedHold : Counter := 0
  abortedDamage : Counter := 0
  abortedDisabled : Counter := 0
  abortedPortLost : Counter := 0
  abortedPortOff : Counter := 0
  linesForwarded : Counter := 0
  sidesForwarded : Counter := 0
  damagedForwarded : Counter := 0
  filtered : Counter := 0
  overrunLines : Counter := 0
  skippedPackets : Counter := 0
  orphans : Counter := 0
  shortFrames : Counter := 0
  mismatches : Counter := 0
  deriving DecidableEq, Repr

/-- One entry of the route table with its runtime fields (R19 to R21), the frame idle timer (R41) and the
route's counters (R65). -/
structure Route where
  config : RouteConfig
  holdPoint : Option HoldPoint
  gate : Gate
  assembly : Assembly
  heldSegments : Nat
  refusalRun : Bool
  idleTimer : Timer
  counters : RouteCounters
  deriving DecidableEq, Repr

/-- The default configuration of an entry (R19). -/
def RouteConfig.reset (route : Fin 64) : RouteConfig :=
  { trunkChannel := route.val, mode := .plain, filter := [], overrideCode := none, policy := .forward,
    cap := 512, floor := 32, idleLimit := 100 }

/-- An entry after part reset (R18). -/
def Route.reset (route : Fin 64) : Route :=
  { config := .reset route, holdPoint := none, gate := .disabled, assembly := .idle, heldSegments := 0,
    refusalRun := false, idleTimer := .stopped, counters := {} }

/-! ## Chapters 4 and 6: pool, trunk queue and sender -/

/-- The segment pool and the free descriptors (R66, R72). -/
structure Pool where
  freeSegments : Nat
  freeDescriptors : Nat
  segmentLowMark : Nat
  descriptorLowMark : Nat
  deriving DecidableEq, Repr

/-- The pool after part reset (R85). -/
def Pool.reset : Pool :=
  { freeSegments := Config.segmentCount, freeDescriptors := Config.descriptorCount,
    segmentLowMark := Config.segmentCount, descriptorLowMark := Config.descriptorCount }

/-- Why an admitted frame ended by an abort (R63). -/
inductive AbortReason where
  | truncated
  | idle
  | starved
  | hold
  | damage
  | disabled
  | portLost
  | portOff
  deriving DecidableEq, Repr

/-- The kind of a stream record with its record fields (R72, R109). -/
inductive RecordBody where
  | opening (mode : Mode) (number declaredLines declaredBytes : Nat)
  | line (code : Nat) (damaged long : Bool) (index : Nat) (payload : List Byte)
  | side (code : Nat) (damaged : Bool) (payload : List Byte)
  | closing (damagedLines overrun mismatch short : Bool) (number forwarded : Nat) (sealValue : Option Seal)
  | abort (reason : AbortReason) (number forwarded : Nat)
  deriving DecidableEq, Repr

/-- A descriptor in state QUEUED: the route that took it, its trunk channel, its segment count and its record
(R72). Which segments it lists is not visible outside the part (R66, log entry 7). -/
structure StreamRecord where
  route : Fin 64
  trunkChannel : Nat
  segments : Nat
  body : RecordBody
  deriving DecidableEq, Repr

/-- What the trunk sender is transmitting (R110). -/
inductive InFlight where
  | nothing
  | stream
  | reply
  | notice (sequence : Nat)
  deriving DecidableEq, Repr

/-- The trunk sender (R110). The remote output slot is the remote source's `slot`. `wire` holds the bytes of the
record in transmission, built at its start (R113, R184). -/
structure Sender where
  credits : Nat
  inFlight : InFlight
  headInterrupted : Bool
  stallTimer : Timer
  stalled : Bool
  wire : List Byte
  deriving DecidableEq, Repr

/-- The sender after part reset (R110). -/
def Sender.reset : Sender :=
  { credits := 0, inFlight := .nothing, headInterrupted := false, stallTimer := .stopped, stalled := false,
    wire := [] }

/-- The fourteen counters of the trunk set: the sender's eight (R124), then the link controller's six (R142). -/
structure TrunkCounters where
  recordsSent : Counter := 0
  repliesSent : Counter := 0
  noticesSent : Counter := 0
  resends : Counter := 0
  grants : Counter := 0
  creditClamped : Counter := 0
  grantErrors : Counter := 0
  stalls : Counter := 0
  locks : Counter := 0
  trainFails : Counter := 0
  signalLosses : Counter := 0
  retrains : Counter := 0
  halts : Counter := 0
  rxDiscarded : Counter := 0
  deriving DecidableEq, Repr

/-! ## Chapter 7: the link controller -/

/-- Link state (R126). -/
inductive LinkState where
  | halted
  | training
  | locked
  | down
  deriving DecidableEq, Repr

/-- The trunk link controller (R126). -/
structure Link where
  state : LinkState
  epoch : Nat
  autoTrain : Bool
  reverseAligned : Bool
  trainTimer : Timer
  retryTimer : Timer
  deriving DecidableEq, Repr

/-- The link controller after a part reset that sets the epoch and samples AUTOTRAIN (R126 to R128). -/
def Link.reset (epoch : Nat) (autoTrain : Bool) : Link :=
  { state := if autoTrain then .training else .halted, epoch, autoTrain, reverseAligned := false,
    trainTimer := if autoTrain then .running Config.trainLimit else .stopped, retryTimer := .stopped }

/-! ## Chapter 8: the control port and the executor -/

/-- Control port rate (R143). -/
inductive Rate where
  | rate115200
  | rate460800
  | rate1000000
  | rate3000000
  deriving DecidableEq, Repr

/-- The rate that RATE_B and RATE_A select (R143). -/
def rateOf (straps : Straps) : Rate :=
  match straps.rateB, straps.rateA with
  | false, false => .rate115200
  | false, true => .rate460800
  | true, false => .rate1000000
  | true, true => .rate3000000

/-- Receive state of the control port (R144). -/
inductive ReceiveState where
  | idle
  | inRecord
  deriving DecidableEq, Repr

/-- Position within a record (R144). -/
inductive Position where
  | length
  | body
  | check
  deriving DecidableEq, Repr

/-- The control port's receive logic (R144). `record` holds the length character, the body and the check
characters received so far. -/
structure Receiver where
  state : ReceiveState
  position : Position
  length : Option Nat
  record : List Byte
  gapTimer : Timer
  deriving DecidableEq, Repr

/-- The receive logic after part reset (R144). -/
def Receiver.reset : Receiver :=
  { state := .idle, position := .length, length := none, record := [], gapTimer := .stopped }

/-- What the control port is transmitting (R156, R172). -/
inductive Transmitting where
  | nothing
  | reply
  | notice (sequence : Nat)
  deriving DecidableEq, Repr

/-- The control port's transmit side: what it transmits and the characters on CP_TXD (R156). -/
structure Transmitter where
  sending : Transmitting
  wire : List Byte
  deriving DecidableEq, Repr

/-- A good command record (R148, R150): sequence, command code and arguments (section 10.2). -/
structure CommandRecord where
  sequence : Byte
  code : Byte
  arguments : List Byte
  deriving DecidableEq, Repr

/-- Status of a reply (R155). -/
inductive Status where
  | ok
  | unknownCommand
  | badLength
  | badArg
  | noLease
  | leaseHeld
  | wrongState
  | clash
  | sealedRule
  deriving DecidableEq, Repr

/-- A reply record: echoed sequence, echoed command code, status and results (section 10.2). -/
structure Reply where
  sequence : Byte
  code : Byte
  status : Status
  results : List Byte
  deriving DecidableEq, Repr

/-- The ten counters of a source, in the order of R165. -/
structure SourceCounters where
  noise : Counter := 0
  framing : Counter := 0
  gapAbort : Counter := 0
  badCheck : Counter := 0
  goodRecords : Counter := 0
  inboxOverrun : Counter := 0
  replays : Counter := 0
  executed : Counter := 0
  notOk : Counter := 0
  leaseExpiries : Counter := 0
  deriving DecidableEq, Repr

/-- What the executor keeps for one source (R150). A valid cache holds the reply with its sequence. -/
structure SourceState where
  inbox : Option CommandRecord
  cache : Option Reply
  slot : Option Reply
  counters : SourceCounters
  deriving DecidableEq, Repr

/-- A source after part reset (R150). -/
def SourceState.reset : SourceState :=
  { inbox := none, cache := none, slot := none, counters := {} }

/-- A pending part reset: the source of the RESET_PART and the grace timer (R150, R162). -/
structure PendingReset where
  source : Source
  grace : Timer
  deriving DecidableEq, Repr

/-- The edit lease (R150, R157). -/
structure Lease where
  holder : Option Source
  time : Nat
  timer : Timer
  deriving DecidableEq, Repr

/-- The lease after part reset (R150). -/
def Lease.reset : Lease :=
  { holder := none, time := Config.defaultLeaseTime, timer := .stopped }

/-- Detail of a COMMAND reset cause (R163). -/
inductive ResetDetail where
  | replySent
  | grace
  deriving DecidableEq, Repr

/-- Cause of a part reset with its detail (R163). -/
inductive ResetCause where
  | powerOn
  | pin
  | command (source : Source) (detail : ResetDetail)
  deriving DecidableEq, Repr

/-- RESET_N: high, low, or low since power-on ended, which makes the reset at its release one of cause POWER_ON
(R163). -/
inductive ResetLine where
  | high
  | low
  | lowSincePowerOn
  deriving DecidableEq, Repr

/-! ## Chapter 9: the notice queue -/

/-- Reason of a ROUTE_SHUT (R93). -/
inductive ShutReason where
  | hold
  | step
  | tag
  deriving DecidableEq, Repr

/-- The condition of a hold point without its value, as HOLD_FIRED names it (R99). -/
inductive ConditionName where
  | frameNumber
  | content
  | damage
  deriving DecidableEq, Repr

/-- The twelve notice kinds with their fields (R171). -/
inductive NoticeInfo where
  | resetDone (cause : ResetCause) (epoch : Nat)
  | portUp (port : Fin 4) (lanes : Lanes)
  | portLost (port : Fin 4)
  | routeShut (route : Fin 64) (reason : ShutReason) (frame : Option Nat)
  | holdFired (route : Fin 64) (frame : Nat) (kind : HoldKind) (condition : ConditionName)
  | frameAborted (route : Fin 64) (frame : Nat) (reason : AbortReason)
  | frameRefused (route : Fin 64) (frame : Nat)
  | trunkLocked (epoch : Nat)
  | trunkDown
  | trunkStall
  | leaseLost (holder : Source)
  | noticesLost (count : Nat)
  deriving DecidableEq, Repr

/-- A held notice (R166). `sent` is the sent mark, `true` for SENT. -/
structure Notice where
  sequence : Nat
  info : NoticeInfo
  sent : Bool
  deriving DecidableEq, Repr

/-- The kind mask in the order of R171; `true` is MASKED. -/
structure KindMask where
  portUp : Bool
  portLost : Bool
  routeShut : Bool
  holdFired : Bool
  frameAborted : Bool
  frameRefused : Bool
  trunkLocked : Bool
  trunkDown : Bool
  trunkStall : Bool
  leaseLost : Bool
  deriving DecidableEq, Repr

/-- The kind mask after part reset: FRAME_ABORTED masked, every other kind enabled (R166). -/
def KindMask.reset : KindMask :=
  { portUp := false, portLost := false, routeShut := false, holdFired := false, frameAborted := true,
    frameRefused := false, trunkLocked := false, trunkDown := false, trunkStall := false, leaseLost := false }

/-- The notice queue (R166). -/
structure NoticeQueue where
  held : List Notice
  nextSequence : Nat
  lost : Nat
  mask : KindMask
  destination : Source
  deriving DecidableEq, Repr

/-- The notice queue after part reset, before RESET_DONE is raised (R166). -/
def NoticeQueue.reset : NoticeQueue :=
  { held := [], nextSequence := 1, lost := 0, mask := .reset, destination := .localSource }

/-! ## The whole part -/

/-- The part, and the queue of commands that wait (log entry 1). -/
structure State where
  ports : Vector Port 4
  routes : Vector Route 64
  pool : Pool
  queue : List StreamRecord
  sender : Sender
  link : Link
  trunkCounters : TrunkCounters
  receiver : Receiver
  transmitter : Transmitter
  rate : Rate
  sourceLocal : SourceState
  sourceRemote : SourceState
  arbiter : Option Source
  resetPending : Option PendingReset
  lease : Lease
  resetCause : ResetCause
  notices : NoticeQueue
  resetLine : ResetLine
  pending : List Instr
  deriving DecidableEq, Repr

/-- Why the part would stop with a fault: never. The spec gives the part no fault that stops it: bad input is
counted and discarded (R9, R13, R146, R185) and a refused command is answered with a status (R155). -/
inductive Fault where
  deriving DecidableEq, Repr

/-- Why the model answers no meaning. -/
inductive Refusal where
  /-- The command has no meaning in the model yet. Raised only by `exec`'s own arm for such a command; no arm is
  left that raises it. Safe: the model says nothing where the part goes on. -/
  | notModelled (mnemonic : String)
  deriving DecidableEq, Repr

/-- Every block at its reset value (step 4 of R164), with the cause, the epoch and the straps that the reset
records (steps 2, 3 and 6), before RESET_DONE is raised. RESET_N is high when a part reset is taken (R163). -/
def State.blank (cause : ResetCause) (epoch : Nat) (straps : Straps) : State :=
  { ports := Vector.replicate 4 Port.reset
    routes := Vector.ofFn Route.reset
    pool := .reset
    queue := []
    sender := .reset
    link := .reset epoch straps.autoTrain
    trunkCounters := {}
    receiver := .reset
    transmitter := { sending := .nothing, wire := [] }
    rate := rateOf straps
    sourceLocal := .reset
    sourceRemote := .reset
    arbiter := none
    resetPending := none
    lease := .reset
    resetCause := cause
    notices := .reset
    resetLine := .high
    pending := [] }

/-- The strap levels behind `State.reset`: RATE_A high, RATE_B low, AUTOTRAIN high, those of the bring-up of
section 11.1. DESIGN CHOICE, unsafe (log entry 2): the spec leaves the straps to the board. -/
def strapsAtReset : Straps := { rateA := true, rateB := false, autoTrain := true }

/-- The part right after a POWER_ON part reset with the straps of `strapsAtReset`: every block at its reset value,
epoch 1, RESET_DONE held with sequence 1 (R164, R170) and in transmission on CP_TXD (R156). The characters on the
wire are that notice's record (section 10.4): body 03, 01 00, kind 00, cause 00, detail 00 00, epoch 01 00. -/
def State.reset : State :=
  { State.blank .powerOn 1 strapsAtReset with
    notices := { NoticeQueue.reset with
      held := [{ sequence := 1, info := .resetDone .powerOn 1, sent := false }], nextSequence := 2 }
    transmitter :=
      { sending := .notice 1
        wire := [0x7E, 0x09, 0x03, 0x01, 0x00, 0x00, 0x00, 0x00, 0x00, 0x01, 0x00, 0x91, 0x9D] } }

end Sys2Proof.Machine
end

