-- ==== Sys2Proof/Machine/Checks.lean ====
section
/-! DEFINITION. The three checks of section 10.1 and the byte order of multi-byte fields (low byte first). -/

namespace Sys2Proof.Machine

/-- One bit of a check of width `w`: shift left, and add the polynomial when a one is shifted out. -/
def checkBit {w : Nat} (poly c : BitVec w) : BitVec w :=
  if c.msb then (c <<< 1) ^^^ poly else c <<< 1

/-- Feed one byte into a check of width `w`, most significant bit first, without reflection (section 10.1). -/
def checkByte {w : Nat} (poly c : BitVec w) (b : Byte) : BitVec w :=
  Nat.repeat (checkBit poly) 8 (c ^^^ (b.setWidth w <<< (w - 8)))

/-- Feed bytes into a running 16-bit record or payload check (R12, R144, section 10.1). -/
def check16From (c : Check) (bytes : List Byte) : Check :=
  bytes.foldl (checkByte 0x1021#16) c

/-- The starting value of a 16-bit check, all ones. -/
def check16Start : Check := 0xFFFF#16

/-- The record check over bytes (section 10.1). -/
def recordCheck (bytes : List Byte) : Check := check16From check16Start bytes

/-- The header check: 8 bits, polynomial x⁸+x²+x+1, initial value 0xFF (section 10.1). -/
def headerCheck (bytes : List Byte) : BitVec 8 := bytes.foldl (checkByte 0x07#8) 0xFF#8

/-- The starting value of a seal (R59). -/
def sealStart : Seal := 0xFFFFFFFF#32

/-- Feed a forwarded payload into a running seal (R59). -/
def sealFrom (c : Seal) (bytes : List Byte) : Seal := bytes.foldl (checkByte 0x04C11DB7#32) c

/-! ## Fields of bytes -/

/-- One-byte field. -/
def byte (n : Nat) : Byte := BitVec.ofNat 8 n

/-- Two-byte field, low byte first. -/
def word16 (n : Nat) : List Byte := [byte n, byte (n / 256)]

/-- Four-byte field, low byte first. -/
def word32 (n : Nat) : List Byte := [byte n, byte (n / 256), byte (n / 65536), byte (n / 16777216)]

/-- A two-byte field read low byte first. -/
def read16 (lo hi : Byte) : Nat := lo.toNat + 256 * hi.toNat

/-- A 16-bit check as it is sent, low byte first (section 10.1). -/
def checkBytes (c : Check) : List Byte := word16 c.toNat

/-! ## The sensor packet header (R183) -/

/-- Byte `k` of the header, byte 0 the low byte. -/
def headerByte (header : Header) (k : Nat) : Byte := header.extractLsb' (8 * k) 8

/-- Bits 0 to 3: the channel. -/
def headerChannel (header : Header) : Fin 16 := (header.extractLsb' 0 4).toFin

/-- Bits 4 to 9: the content code. -/
def headerCode (header : Header) : Nat := (header.extractLsb' 4 6).toNat

/-- Bits 10 to 23: the length. -/
def headerLength (header : Header) : Nat := (header.extractLsb' 10 14).toNat

/-- The header passes when its check, byte 3, matches bytes 0 to 2 and its length is at most 8,192 (R9, R183). -/
def headerPasses (header : Header) : Bool :=
  headerCheck [headerByte header 0, headerByte header 1, headerByte header 2] == headerByte header 3
    && headerLength header ≤ Config.maxPayload

/-- The fields of a header that passed. -/
def headerFields (header : Header) : PacketHeader :=
  { channel := headerChannel header, code := headerCode header, length := headerLength header }

end Sys2Proof.Machine
end

