-- ==== Sys2Proof/Machine/Operands.lean ====
section
/-! DEFINITION. Named values and their codes (section 10.2), and the reading of command arguments (R28, R181).
A code the table does not assign reads as `none`, which the commands answer with BAD_ARG (R181). -/

namespace Sys2Proof.Machine

/-! ## Codes of named values (section 10.2) -/

/-- Status code. -/
def Status.code : Status → Byte
  | .ok => 0x00
  | .unknownCommand => 0x01
  | .badLength => 0x02
  | .badArg => 0x03
  | .noLease => 0x04
  | .leaseHeld => 0x05
  | .wrongState => 0x06
  | .clash => 0x07
  | .sealedRule => 0x08

/-- Yes and no, ENABLE and DISABLE, present and absent, MASKED and ENABLED: one byte, 1 or 0. -/
def flagByte (b : Bool) : Byte := if b then 1 else 0

/-- Port state code. -/
def PortState.code : PortState → Byte
  | .off => 0
  | .seeking => 1
  | .active => 2
  | .lost => 3

/-- Lane count as a number. -/
def Lanes.count : Lanes → Nat
  | .one => 1
  | .two => 2
  | .four => 4

/-- Disposition code. -/
def Disposition.code : Disposition → Byte
  | .toRoute => 0
  | .unrouted => 1
  | .unknownKind => 2
  | .headerError => 3

/-- Gate state code. -/
def Gate.code : Gate → Byte
  | .disabled => 0
  | .opened => 1
  | .closing => 2
  | .shut => 3
  | .stepping => 4

/-- Assembly state code. -/
def Assembly.code : Assembly → Byte
  | .idle => 0
  | .assembling _ _ => 1
  | .skipping => 2

/-- Mode code. -/
def Mode.code : Mode → Byte
  | .plain => 0
  | .sealed => 1

/-- Damage policy code. -/
def DamagePolicy.code : DamagePolicy → Byte
  | .forward => 0
  | .abort => 1

/-- Hold kind code. -/
def HoldKind.code : HoldKind → Byte
  | .force => 0
  | .tag => 1

/-- The condition's name without its value. -/
def HoldCondition.name : HoldCondition → ConditionName
  | .frameNumber _ => .frameNumber
  | .content _ => .content
  | .damage => .damage

/-- Condition code. -/
def ConditionName.code : ConditionName → Byte
  | .frameNumber => 0
  | .content => 1
  | .damage => 2

/-- The condition value as a two-byte field (R20, section 10.3). DESIGN CHOICE (log entry 18): the field is 0 for
DAMAGE, which has no condition value; the spec says no bytes for it, and R182's zeros are for fields with a presence
byte. -/
def HoldCondition.value : HoldCondition → Nat
  | .frameNumber number => number
  | .content code => code
  | .damage => 0

/-- Abort reason code. -/
def AbortReason.code : AbortReason → Byte
  | .truncated => 1
  | .idle => 2
  | .starved => 3
  | .disabled => 4
  | .portLost => 5
  | .portOff => 6
  | .hold => 7
  | .damage => 8

/-- ROUTE_SHUT reason code. -/
def ShutReason.code : ShutReason → Byte
  | .hold => 0
  | .step => 1
  | .tag => 2

/-- Link state code. -/
def LinkState.code : LinkState → Byte
  | .halted => 0
  | .training => 1
  | .locked => 2
  | .down => 3

/-- In-flight code. -/
def InFlight.code : InFlight → Byte
  | .nothing => 0
  | .stream => 1
  | .reply => 2
  | .notice _ => 3

/-- The notice sequence in flight, 0 unless NOTICE (section 10.3). -/
def InFlight.sequence : InFlight → Nat
  | .notice sequence => sequence
  | _ => 0

/-- Source code, also of the destination. -/
def Source.code : Source → Byte
  | .localSource => 1
  | .remoteSource => 2

/-- Lease holder code: NONE is 0. -/
def holderCode : Option Source → Byte
  | none => 0
  | some source => source.code

/-- Reset cause code. -/
def ResetCause.code : ResetCause → Byte
  | .powerOn => 0
  | .pin => 1
  | .command _ _ => 2

/-- Detail code. -/
def ResetDetail.code : ResetDetail → Byte
  | .replySent => 0
  | .grace => 1

/-- The detail source and detail bytes, 0 for a cause other than COMMAND (section 10.4; log entry 13 for
IDENTIFY). -/
def ResetCause.detailBytes : ResetCause → List Byte
  | .command source detail => [source.code, detail.code]
  | _ => [0, 0]

/-- Rate code. -/
def Rate.code : Rate → Byte
  | .rate115200 => 0
  | .rate460800 => 1
  | .rate1000000 => 2
  | .rate3000000 => 3

/-! ## Reading named values -/

/-- A byte that holds one of two values coded 0 and 1. -/
def readFlag (b : Byte) : Option Bool :=
  if b == 0 then some false else if b == 1 then some true else none

/-- A lane count 1, 2 or 4 (R15). -/
def readLanes (b : Byte) : Option Lanes :=
  if b == 1 then some .one else if b == 2 then some .two else if b == 4 then some .four else none

/-- A port number 0 to 3. -/
def readPort (b : Byte) : Option (Fin 4) :=
  if h : b.toNat < 4 then some ⟨b.toNat, h⟩ else none

/-- A route number 0 to 63 (R18). -/
def readRoute (b : Byte) : Option (Fin 64) :=
  if h : b.toNat < 64 then some ⟨b.toNat, h⟩ else none

/-- A source, LOCAL or REMOTE; NONE is no value of an argument. -/
def readSource (b : Byte) : Option Source :=
  if b == 1 then some .localSource else if b == 2 then some .remoteSource else none

/-- Mode value. -/
def readMode (b : Byte) : Option Mode :=
  (readFlag b).map fun isSealed => if isSealed then .sealed else .plain

/-- Damage policy value. -/
def readPolicy (b : Byte) : Option DamagePolicy :=
  (readFlag b).map fun isAbort => if isAbort then .abort else .forward

/-- Hold kind value. -/
def readHoldKind (b : Byte) : Option HoldKind :=
  (readFlag b).map fun isTag => if isTag then .tag else .force

/-- A side or line content code, 0x08 to 0x3F (R19, R20). -/
def readContentCode (n : Nat) : Option Nat :=
  if 0x08 ≤ n ∧ n ≤ 0x3F then some n else none

/-- An override: NONE is 0x00, otherwise a code 0x10 to 0x3F (section 10.2). -/
def readOverride (b : Byte) : Option (Option Nat) :=
  if b == 0 then some none
  else if 0x10 ≤ b.toNat ∧ b.toNat ≤ 0x3F then some (some b.toNat) else none

/-! ## ROUTE_WRITE arguments (R28, section 10.3) -/

/-- The values of a ROUTE_WRITE as they stand in the arguments, absent for a field not named (R28). -/
structure RouteEdit where
  trunkChannel : Option Byte
  mode : Option Byte
  filter : Option (List Byte)
  overrideCode : Option Byte
  policy : Option Byte
  cap : Option Nat
  floor : Option Nat
  idleLimit : Option Nat
  deriving DecidableEq, Repr

/-- Take a one-byte value when its field is selected; `none` when the arguments end before it. -/
def takeByte (selected : Bool) (args : List Byte) : Option (Option Byte × List Byte) :=
  if selected then
    match args with
    | b :: rest => some (some b, rest)
    | [] => none
  else some (none, args)

/-- Take a two-byte value, low byte first, when its field is selected. -/
def takeWord (selected : Bool) (args : List Byte) : Option (Option Nat × List Byte) :=
  if selected then
    match args with
    | lo :: hi :: rest => some (some (read16 lo hi), rest)
    | _ => none
  else some (none, args)

/-- Take a filter list when it is selected: a count, and that many codes; a count above 4 is no length the part
knows (R29, R181). -/
def takeFilter (selected : Bool) (args : List Byte) : Option (Option (List Byte) × List Byte) :=
  if selected then
    match args with
    | count :: rest =>
      if count.toNat ≤ 4 ∧ count.toNat ≤ rest.length then
        some (some (rest.take count.toNat), rest.drop count.toNat)
      else none
    | [] => none
  else some (none, args)

/-- The values named by a field selection, in R19 order, bit 0 for the trunk channel to bit 7 for the frame idle
limit; `none` when the arguments have not exactly the length the selection calls for (R29 check 2). -/
def readEdit (selection : Byte) (args : List Byte) : Option RouteEdit := do
  let (trunkChannel, args) ← takeByte (selection.getLsbD 0) args
  let (mode, args) ← takeByte (selection.getLsbD 1) args
  let (filter, args) ← takeFilter (selection.getLsbD 2) args
  let (overrideCode, args) ← takeByte (selection.getLsbD 3) args
  let (policy, args) ← takeByte (selection.getLsbD 4) args
  let (cap, args) ← takeWord (selection.getLsbD 5) args
  let (floor, args) ← takeWord (selection.getLsbD 6) args
  let (idleLimit, args) ← takeWord (selection.getLsbD 7) args
  if args.isEmpty then
    some { trunkChannel, mode, filter, overrideCode, policy, cap, floor, idleLimit }
  else none

/-- A field not named keeps its present value; a named one is read, and `none` says that it is out of range. -/
def chosen {α β : Type} (value : Option α) (present : β) (read : α → Option β) : Option β :=
  match value with
  | none => some present
  | some v => read v

/-- A number within bounds. -/
def readRange (low high n : Nat) : Option Nat :=
  if low ≤ n ∧ n ≤ high then some n else none

/-- A filter list: codes 0x08 to 0x3F, no two equal, kept in the order written (R19). -/
def readFilter (codes : List Byte) : Option (List Nat) :=
  let values := codes.map BitVec.toNat
  if values.all (fun n => 0x08 ≤ n && n ≤ 0x3F) && decide values.Nodup then some values else none

/-- The entry a write would produce (R25, R29), or `none` when a value is out of range or the resulting floor is
above the resulting cap (R29 check 3). -/
def RouteConfig.edited (config : RouteConfig) (edit : RouteEdit) : Option RouteConfig := do
  let trunkChannel ← chosen edit.trunkChannel config.trunkChannel (fun b => readRange 0 63 b.toNat)
  let mode ← chosen edit.mode config.mode readMode
  let filter ← chosen edit.filter config.filter readFilter
  let overrideCode ← chosen edit.overrideCode config.overrideCode readOverride
  let policy ← chosen edit.policy config.policy readPolicy
  let cap ← chosen edit.cap config.cap (readRange 16 Config.segmentCount)
  let floor ← chosen edit.floor config.floor some
  let idleLimit ← chosen edit.idleLimit config.idleLimit (readRange 1 1000)
  if floor ≤ cap then
    some { trunkChannel, mode, filter, overrideCode, policy, cap, floor, idleLimit }
  else none

/-! ## Routes and segments -/

/-- The route of a port and a channel: port x 16 + channel (R18). -/
def routeOf (port : Fin 4) (channel : Fin 16) : Fin 64 := ⟨port.val * 16 + channel.val, by omega⟩

/-- The port a route belongs to (R18). -/
def portOf (route : Fin 64) : Fin 4 := ⟨route.val / 16, by omega⟩

/-- The channel of a route on its port (R18). -/
def channelOf (route : Fin 64) : Fin 16 := ⟨route.val % 16, by omega⟩

/-- The number of segments a line or side packet needs: the larger of 1 and the header length divided by 256,
rounded up (R53, R67). -/
def segmentsFor (length : Nat) : Nat := max 1 ((length + 255) / 256)

end Sys2Proof.Machine
end

