-- ==== Sys2Proof/Machine/Flags.lean ====
section
/-! DEFINITION. The flag bytes of chapter 10 and the flags a closing mark decides (R60). Bits the chapter assigns to
nothing are 0 (R182, R184). -/

namespace Sys2Proof.Machine

/-- A flag at a bit position of a flag byte. -/
def flagBit (b : Bool) (position : Nat) : Nat := if b then 2 ^ position else 0

/-- Open-frame flags: DAMAGED_LINES at bit 0, OVERRUN at bit 1 (section 10.3). -/
def OpenFrame.flags (frame : OpenFrame) : Byte :=
  byte (flagBit frame.damagedLines 0 + flagBit frame.overrun 1)

/-- Line and side record flags: DAMAGED at bit 0, LONG at bit 1 (section 10.6). -/
def packetFlags (damaged long : Bool) : Byte := byte (flagBit damaged 0 + flagBit long 1)

/-- Closing mark flags: DAMAGED_LINES 0, OVERRUN 1, MISMATCH 2, SHORT 3, SEALED 4 (section 10.6). -/
def closingFlags (damagedLines overrun mismatch short hasSeal : Bool) : Byte :=
  byte (flagBit damagedLines 0 + flagBit overrun 1 + flagBit mismatch 2 + flagBit short 3
    + flagBit hasSeal 4)

/-- SHORT: lines received is below declared lines at the closing mark (R60). -/
def OpenFrame.isShort (frame : OpenFrame) : Bool := frame.received < frame.declaredLines

/-- MISMATCH: the closing mark's frame number differs from the open frame's (R60). -/
def OpenFrame.isMismatch (frame : OpenFrame) (number : Nat) : Bool := number != frame.number

end Sys2Proof.Machine
end

