-- ==== Sys2Proof/Machine/Records.lean ====
section
/-! DEFINITION. The records the part sends (sections 10.2 to 10.4 and 10.6): reply and notice bodies, their framing
on the control port and in the trunk, stream records, lock announcements, and what TRUNK_TX carries (R129). -/

namespace Sys2Proof.Machine

/-- An optional field: a presence byte, then the field's bytes, zeros when absent (R182). -/
def presence (present : Bool) (bytes : List Byte) : List Byte :=
  flagByte present :: if present then bytes else List.replicate bytes.length 0

/-! ## Reply and notice bodies -/

/-- A reply body (section 10.2). -/
def Reply.body (reply : Reply) : List Byte :=
  [0x02, reply.sequence, reply.code, reply.status.code] ++ reply.results

/-- Notice kind code (section 10.4). -/
def NoticeInfo.kindCode : NoticeInfo → Byte
  | .resetDone _ _ => 0x00
  | .portUp _ _ => 0x01
  | .portLost _ => 0x02
  | .routeShut _ _ _ => 0x03
  | .holdFired _ _ _ _ => 0x04
  | .frameAborted _ _ _ => 0x05
  | .frameRefused _ _ => 0x06
  | .trunkLocked _ => 0x07
  | .trunkDown => 0x08
  | .trunkStall => 0x09
  | .leaseLost _ => 0x0A
  | .noticesLost _ => 0x0B

/-- The fields after the kind byte (section 10.4). -/
def NoticeInfo.fields : NoticeInfo → List Byte
  | .resetDone cause epoch => cause.code :: cause.detailBytes ++ word16 epoch
  | .portUp port lanes => [byte port.val, byte lanes.count]
  | .portLost port => [byte port.val]
  | .routeShut route reason frame =>
    [byte route.val, reason.code] ++ presence frame.isSome (word16 (frame.getD 0))
  | .holdFired route frame kind condition =>
    byte route.val :: word16 frame ++ [kind.code, condition.code]
  | .frameAborted route frame reason => byte route.val :: word16 frame ++ [reason.code]
  | .frameRefused route frame => byte route.val :: word16 frame
  | .trunkLocked epoch => word16 epoch
  | .trunkDown => []
  | .trunkStall => []
  | .leaseLost holder => [holder.code]
  | .noticesLost count => word16 count

/-- A notice body (section 10.2). -/
def Notice.body (notice : Notice) : List Byte :=
  0x03 :: word16 notice.sequence ++ notice.info.kindCode :: notice.info.fields

/-! ## Framing -/

/-- A body with its length byte before it and its record check after it (section 10.2). -/
def framed (body : List Byte) : List Byte :=
  let covered := byte body.length :: body
  covered ++ checkBytes (recordCheck covered)

/-- A record on the control port: the start character, then length, body and check (section 10.2). -/
def portRecord (body : List Byte) : List Byte := 0x7E :: framed body

/-- A reply in the trunk forward direction, trunk kind 0x10 (section 10.6). -/
def trunkReply (reply : Reply) : List Byte := 0x10 :: framed reply.body

/-- A notice in the trunk forward direction, trunk kind 0x11 (section 10.6). -/
def trunkNotice (notice : Notice) : List Byte := 0x11 :: framed notice.body

/-- Bytes with the record check over all of them. -/
def checked (bytes : List Byte) : List Byte := bytes ++ checkBytes (recordCheck bytes)

/-- A stream record in the trunk forward direction, built from its descriptor (R184, section 10.6). -/
def StreamRecord.bytes (record : StreamRecord) : List Byte :=
  checked <| match record.body with
  | .opening mode number declaredLines declaredBytes =>
    [0x01, byte record.trunkChannel, mode.code] ++ word16 number ++ word16 declaredLines
      ++ word16 declaredBytes
  | .line code damaged long index payload =>
    [0x02, byte record.trunkChannel, byte code, packetFlags damaged long] ++ word16 index
      ++ word16 payload.length ++ payload
  | .side code damaged payload =>
    [0x03, byte record.trunkChannel, byte code, packetFlags damaged false] ++ word16 payload.length
      ++ payload
  | .closing damagedLines overrun mismatch short number forwarded sealValue =>
    [0x04, byte record.trunkChannel,
      closingFlags damagedLines overrun mismatch short sealValue.isSome] ++ word16 number
      ++ word16 forwarded ++ (match sealValue with | some v => word32 v.toNat | none => [])
  | .abort reason number forwarded =>
    [0x05, byte record.trunkChannel, reason.code] ++ word16 number ++ word16 forwarded

/-- A lock announcement carries the epoch in force (R130, R184). -/
def announcement (epoch : Nat) : List Byte := checked (0x20 :: word16 epoch)

/-! ## What TRUNK_TX carries -/

/-- The forward direction (R129): quiet, the training pattern, announcements one after another, or the records of
LOCKED, where `bytes` is the record in transmission, empty between records. -/
inductive TrunkSignal where
  | quiet
  | pattern
  | announcements (bytes : List Byte)
  | records (bytes : List Byte)
  deriving DecidableEq, Repr

/-- What TRUNK_TX carries in a state (R129, R130); quiet while RESET_N is low (R163). -/
def State.trunkSignal (s : State) : TrunkSignal :=
  if s.resetLine = .high then
    match s.link.state with
    | .halted | .down => .quiet
    | .training => if s.link.reverseAligned then .announcements (announcement s.link.epoch) else .pattern
    | .locked => .records s.sender.wire
  else .quiet

end Sys2Proof.Machine
end

