-- ==== Sys2Proof/Machine/Ops.lean ====
section
/-! DEFINITION. The operations the commands share: entries and counters, notices, the pool and the descriptors, the
stream queue, gates, hold points and aborts, the two transmitters, link moves, delivery of command records,
execution, and part reset. Each is written from the rule its comment cites; the commands are short
compositions of them. -/

namespace Sys2Proof.Machine

/-! ## Entries, ports and sources -/

/-- A counter moves by one and saturates (R178). -/
def bump (c : Counter) : Counter := if c < Config.counterMax then c + 1 else c

/-- An entry of the route table. -/
def State.route (s : State) (r : Fin 64) : Route := s.routes[r.val]

/-- Replace an entry of the route table. -/
def State.setRoute (s : State) (r : Fin 64) (x : Route) : State :=
  { s with routes := s.routes.set r.val x }

/-- Change an entry of the route table. -/
def State.modifyRoute (s : State) (r : Fin 64) (f : Route → Route) : State := s.setRoute r (f (s.route r))

/-- An ingress receiver. -/
def State.port (s : State) (p : Fin 4) : Port := s.ports[p.val]

/-- Replace an ingress receiver. -/
def State.setPort (s : State) (p : Fin 4) (x : Port) : State :=
  { s with ports := s.ports.set p.val x }

/-- Change an ingress receiver. -/
def State.modifyPort (s : State) (p : Fin 4) (f : Port → Port) : State := s.setPort p (f (s.port p))

/-- Change the counters of a route. -/
def State.countRoute (s : State) (r : Fin 64) (f : RouteCounters → RouteCounters) : State :=
  s.modifyRoute r fun x => { x with counters := f x.counters }

/-- Change the counters of a port. -/
def State.countPort (s : State) (p : Fin 4) (f : PortCounters → PortCounters) : State :=
  s.modifyPort p fun x => { x with counters := f x.counters }

/-- What the executor keeps for a source (R150). -/
def State.source (s : State) : Source → SourceState
  | .localSource => s.sourceLocal
  | .remoteSource => s.sourceRemote

/-- Replace what the executor keeps for a source. -/
def State.setSource (s : State) (src : Source) (x : SourceState) : State :=
  match src with
  | .localSource => { s with sourceLocal := x }
  | .remoteSource => { s with sourceRemote := x }

/-- Change what the executor keeps for a source. -/
def State.modifySource (s : State) (src : Source) (f : SourceState → SourceState) : State :=
  s.setSource src (f (s.source src))

/-- Change the counters of a source. -/
def State.countSource (s : State) (src : Source) (f : SourceCounters → SourceCounters) : State :=
  s.modifySource src fun x => { x with counters := f x.counters }

/-- Change the trunk counters. -/
def State.countTrunk (s : State) (f : TrunkCounters → TrunkCounters) : State :=
  { s with trunkCounters := f s.trunkCounters }

/-- Sum of a quantity over the 64 entries of the route table. -/
def State.sumRoutes (s : State) (f : Route → Nat) : Nat := (s.routes.toList.map f).sum

/-! ## Notices (chapter 9) -/

/-- The sequence after `n`: 65,535 is followed by 1 (R167); also the epoch after `n` (R127). -/
def next16 (n : Nat) : Nat := if n = Config.max16 then 1 else n + 1

/-- Whether the mask discards a kind; RESET_DONE and NOTICES_LOST have no place in it (R171). -/
def KindMask.masks (mask : KindMask) : NoticeInfo → Bool
  | .resetDone _ _ => false
  | .portUp _ _ => mask.portUp
  | .portLost _ => mask.portLost
  | .routeShut _ _ _ => mask.routeShut
  | .holdFired _ _ _ _ => mask.holdFired
  | .frameAborted _ _ _ => mask.frameAborted
  | .frameRefused _ _ => mask.frameRefused
  | .trunkLocked _ => mask.trunkLocked
  | .trunkDown => mask.trunkDown
  | .trunkStall => mask.trunkStall
  | .leaseLost _ => mask.leaseLost
  | .noticesLost _ => false

/-- Room for a notice: fewer than 16 held and, when the next sequence is 1, none held (R167). -/
def NoticeQueue.hasRoom (q : NoticeQueue) : Bool :=
  q.held.length < Config.noticeCapacity && (q.nextSequence != 1 || q.held.isEmpty)

/-- Append a notice with the next sequence, UNSENT (R167, R168). -/
def NoticeQueue.accept (q : NoticeQueue) (info : NoticeInfo) : NoticeQueue :=
  { q with
    held := q.held ++ [{ sequence := q.nextSequence, info, sent := false }]
    nextSequence := next16 q.nextSequence }

/-- Take a raise: masked, accepted, or lost and counted (R168). -/
def NoticeQueue.raise (q : NoticeQueue) (info : NoticeInfo) : NoticeQueue :=
  if q.mask.masks info then q
  else if q.hasRoom then q.accept info
  else { q with lost := if q.lost < Config.max16 then q.lost + 1 else q.lost }

/-- Raise a notice (R168). -/
def State.raise (s : State) (info : NoticeInfo) : State := { s with notices := s.notices.raise info }

/-- Mark a notice SENT if the queue still holds it (R172). -/
def NoticeQueue.markSent (q : NoticeQueue) (sequence : Nat) : NoticeQueue :=
  { q with held := q.held.map fun n => if n.sequence = sequence then { n with sent := true } else n }

/-- A notice is in transmission while either path is sending it (R166). -/
def State.inTransmission (s : State) (sequence : Nat) : Bool :=
  s.sender.inFlight == .notice sequence || s.transmitter.sending == .notice sequence

/-- The oldest eligible notice: UNSENT and not in transmission (R172). -/
def State.oldestEligible (s : State) : Option Notice :=
  s.notices.held.find? fun n => !n.sent && !s.inTransmission n.sequence

/-! ## Pool, descriptors and stream queue (chapters 4 and 6) -/

/-- Take descriptors from the free ones; the low mark follows a fall (R66, R73). -/
def State.takeDescriptors (s : State) (n : Nat) : State :=
  let free := s.pool.freeDescriptors - n
  { s with pool := { s.pool with
      freeDescriptors := free, descriptorLowMark := min s.pool.descriptorLowMark free } }

/-- Return one descriptor (R80, R81). -/
def State.returnDescriptor (s : State) : State :=
  { s with pool := { s.pool with freeDescriptors := s.pool.freeDescriptors + 1 } }

/-- Grant segments to a route; the low mark follows a fall (R66, R68). -/
def State.takeSegments (s : State) (r : Fin 64) (n : Nat) : State :=
  let free := s.pool.freeSegments - n
  { s.modifyRoute r (fun x => { x with heldSegments := x.heldSegments + n }) with
    pool := { s.pool with freeSegments := free, segmentLowMark := min s.pool.segmentLowMark free } }

/-- Return segments of a route to the pool (R68, R80, R81). -/
def State.returnSegments (s : State) (r : Fin 64) (n : Nat) : State :=
  { s.modifyRoute r (fun x => { x with heldSegments := x.heldSegments - n }) with
    pool := { s.pool with freeSegments := s.pool.freeSegments + n } }

/-- Queue a stream record at the tail, under the trunk channel the route's entry holds (R23, R107). -/
def State.enqueue (s : State) (r : Fin 64) (segments : Nat) (body : RecordBody) : State :=
  { s with queue := s.queue ++
      [{ route := r, trunkChannel := (s.route r).config.trunkChannel, segments, body }] }

/-- Set a route's assembly state. -/
def State.setAssembly (s : State) (r : Fin 64) (a : Assembly) : State :=
  s.modifyRoute r fun x => { x with assembly := a }

/-- Stop a route's frame idle timer (R41). -/
def State.stopIdleTimer (s : State) (r : Fin 64) : State :=
  s.modifyRoute r fun x => { x with idleTimer := .stopped }

/-- Start a route's frame idle timer when the route is ASSEMBLING or SKIPPING, with the limit the entry holds now
(R22, R41). -/
def State.startIdleTimer (s : State) (r : Fin 64) : State :=
  match (s.route r).assembly with
  | .idle => s
  | _ => s.modifyRoute r fun x => { x with idleTimer := .running x.config.idleLimit }

/-- Free the route's line in assembly, if any: its segments and its descriptor return (R81). -/
def State.freeLine (s : State) (r : Fin 64) : State :=
  match (s.route r).assembly with
  | .assembling frame (some line) =>
    ((s.returnSegments r line.segments).returnDescriptor).setAssembly r (.assembling frame none)
  | _ => s

/-! ## Gates and hold points (chapter 5) -/

/-- Move a gate into SHUT from OPEN, CLOSING or STEPPING and raise ROUTE_SHUT; no other gate moves (R93). -/
def State.shutGate (s : State) (r : Fin 64) (reason : ShutReason) (frame : Option Nat) : State :=
  match (s.route r).gate with
  | .opened | .closing | .stepping =>
    (s.modifyRoute r fun x => { x with gate := .shut }).raise (.routeShut r reason frame)
  | .disabled | .shut => s

/-- The frame-end step: CLOSING becomes SHUT with reason HOLD, STEPPING with reason STEP (R60, R92). -/
def State.frameEndStep (s : State) (r : Fin 64) (frame : Nat) : State :=
  match (s.route r).gate with
  | .closing => s.shutGate r .hold (some frame)
  | .stepping => s.shutGate r .step (some frame)
  | _ => s

/-- The effect of a FORCE hold point on the gate: OPEN becomes CLOSING (R100). -/
def State.forceGate (s : State) (r : Fin 64) : State :=
  match (s.route r).gate with
  | .opened => s.modifyRoute r fun x => { x with gate := .closing }
  | _ => s

/-- The armed hold point of a route whose condition is the one given (R98). -/
def Route.armedFor (x : Route) (condition : HoldCondition) : Option HoldPoint :=
  x.holdPoint.filter fun h => h.armed && h.condition == condition

/-- A hold point fires: it disarms and HOLD_FIRED is raised (R99). Its kind takes effect at the caller. -/
def State.fireHoldPoint (s : State) (r : Fin 64) (frame : Nat) (h : HoldPoint) : State :=
  (s.modifyRoute r fun x => { x with holdPoint := some { h with armed := false } }).raise
    (.holdFired r frame h.kind h.condition.name)

/-! ## Aborts (section 3.6) -/

/-- The counter of an abort reason moves, and ABORTED with it (R62, R65). -/
def RouteCounters.countAbort (c : RouteCounters) (reason : AbortReason) : RouteCounters :=
  let c := { c with aborted := bump c.aborted }
  match reason with
  | .truncated => { c with abortedTruncated := bump c.abortedTruncated }
  | .idle => { c with abortedIdle := bump c.abortedIdle }
  | .starved => { c with abortedStarved := bump c.abortedStarved }
  | .hold => { c with abortedHold := bump c.abortedHold }
  | .damage => { c with abortedDamage := bump c.abortedDamage }
  | .disabled => { c with abortedDisabled := bump c.abortedDisabled }
  | .portLost => { c with abortedPortLost := bump c.abortedPortLost }
  | .portOff => { c with abortedPortOff := bump c.abortedPortOff }

/-- The assembly state an abort leaves (R63). -/
def AbortReason.assemblyAfter : AbortReason → Assembly
  | .truncated | .idle | .disabled | .portLost | .portOff => .idle
  | .starved | .hold | .damage => .skipping

/-- The gate step of an abort (R63): SHUT with reason TAG for HOLD, none for DISABLED, else the frame-end step. -/
def State.abortGateStep (s : State) (r : Fin 64) (reason : AbortReason) (frame : Nat) : State :=
  match reason with
  | .hold => s.shutGate r .tag (some frame)
  | .disabled => s
  | _ => s.frameEndStep r frame

/-- Abort the open frame of a route (R34, R62): free the line in assembly, turn the reservation into the abort mark
record, count, raise FRAME_ABORTED, leave ASSEMBLING with the frame idle timer stopped, take the gate step. -/
def State.abort (s : State) (r : Fin 64) (reason : AbortReason) : State :=
  match (s.route r).assembly with
  | .assembling frame _ =>
    ((((((s.freeLine r).enqueue r 0 (.abort reason frame.number frame.forwarded)).countRoute r
      (·.countAbort reason)).raise (.frameAborted r frame.number reason)).setAssembly r
      reason.assemblyAfter).stopIdleTimer r).abortGateStep r reason frame.number
  | _ => s

/-- Take a route's ingress frame away (R6, R8, R33, R41): an open frame aborts, a skipped one ends without a record,
the frame idle timer stops; an IDLE route is unchanged. -/
def State.endIngressFrame (s : State) (r : Fin 64) (reason : AbortReason) : State :=
  match (s.route r).assembly with
  | .assembling _ _ => s.abort r reason
  | .skipping => (s.setAssembly r .idle).stopIdleTimer r
  | .idle => s

/-! ## The two transmitters (R112, R113, R156, R172) -/

/-- The control port, when it is free, starts the local reply, or else the oldest eligible notice under destination
LOCAL (R156). -/
def State.startControlPort (s : State) : State :=
  match s.transmitter.sending with
  | .nothing =>
    match s.sourceLocal.slot with
    | some reply => { s with transmitter := { sending := .reply, wire := portRecord reply.body } }
    | none =>
      match s.notices.destination, s.oldestEligible with
      | .localSource, some notice =>
        { s with transmitter := { sending := .notice notice.sequence, wire := portRecord notice.body } }
      | _, _ => s
  | _ => s

/-- Start the head stream record when a credit is there: the balance falls by one, and a resend of an interrupted
head moves RESENDS (R113). -/
def State.startStream (s : State) : State :=
  match s.queue with
  | record :: _ =>
    if 1 ≤ s.sender.credits then
      let s := if s.sender.headInterrupted then s.countTrunk fun c => { c with resends := bump c.resends } else s
      { s with sender := { s.sender with
          credits := s.sender.credits - 1, inFlight := .stream, headInterrupted := false,
          wire := record.bytes } }
    else s
  | [] => s

/-- The trunk sender, when it is free and the link is LOCKED, starts the remote reply, or else the oldest eligible
notice under destination REMOTE, or else the head stream record (R111, R113). -/
def State.startSender (s : State) : State :=
  match s.sender.inFlight, s.link.state with
  | .nothing, .locked =>
    match s.sourceRemote.slot with
    | some reply => { s with sender := { s.sender with inFlight := .reply, wire := trunkReply reply } }
    | none =>
      match s.notices.destination, s.oldestEligible with
      | .remoteSource, some notice =>
        { s with sender := { s.sender with
            inFlight := .notice notice.sequence, wire := trunkNotice notice } }
      | _, _ => s.startStream
  | _, _ => s

/-- The stall condition: records queued, the link LOCKED, no credit (R120). -/
def State.stallCondition (s : State) : Bool :=
  !s.queue.isEmpty && s.link.state == .locked && s.sender.credits == 0

/-- A stall ends: stalled becomes no and the timer stops (R121). -/
def State.endStall (s : State) : State :=
  { s with sender := { s.sender with stalled := false, stallTimer := .stopped } }

/-- The stall timer follows the stall condition: it starts when the condition comes to hold while stalled is no,
and a stall ends when the condition ceases (R120, R121). -/
def State.followStall (s : State) : State :=
  if s.stallCondition then
    if s.sender.stalled || s.sender.stallTimer.isRunning then s
    else { s with sender := { s.sender with stallTimer := .running Config.creditWaitLimit } }
  else s.endStall

/-- The end of every event: the two paths start what they can, and the stall timer follows (R112, R120, R156). -/
def State.finish (s : State) : State := s.startControlPort.startSender.followStall

/-- An event of the part. A part held by RESET_N takes none (R163), and an event that cannot come about in the
present state changes nothing (log entry 8). -/
def event (s : State) (possible : Bool) (effect : State) : Host.Outcome State Fault Refusal :=
  .next (if s.resetLine == .high && possible then effect.finish else s)

/-! ## Link moves (chapters 6 and 7) -/

/-- A transmission on the trunk is interrupted: a stream record stays at the head as head interrupted, a reply stays
in its slot, a notice stays UNSENT (R115). -/
def State.interrupt (s : State) : State :=
  { s with sender := { s.sender with
      inFlight := .nothing, wire := []
      headInterrupted := s.sender.headInterrupted || s.sender.inFlight == .stream } }

/-- What every departure from LOCKED does to the sender: the interruption, a balance of 0, the end of a stall
(R115, R119, R121). TRUNK_HALT does it in every link state. -/
def State.dropLock (s : State) : State :=
  let s := s.interrupt.endStall
  { s with sender := { s.sender with credits := 0 } }

/-- Entry into TRAINING, step 1 of R130. -/
def State.enterTraining (s : State) : State :=
  { s with link := { s.link with
      state := .training, reverseAligned := false, trainTimer := .running Config.trainLimit,
      retryTimer := .stopped } }

/-- Entry into DOWN: quiet, not aligned, the retry timer starts (R132, R134). -/
def State.enterDown (s : State) : State :=
  { s with link := { s.link with
      state := .down, reverseAligned := false, trainTimer := .stopped,
      retryTimer := .running Config.retryInterval } }

/-- Entry into HALTED: quiet, not aligned, no timer (R136). -/
def State.enterHalted (s : State) : State :=
  { s with link := { s.link with
      state := .halted, reverseAligned := false, trainTimer := .stopped, retryTimer := .stopped } }

/-! ## Part reset (section 8.8) -/

/-- A part reset (R164): every block takes its reset values with the cause, the epoch and the straps, and RESET_DONE
is raised. The queue of commands that wait is the environment's and stays. The starts that follow belong to the
end of the event. -/
def State.partReset (s : State) (cause : ResetCause) (epoch : Nat) (straps : Straps) : State :=
  { State.blank cause epoch straps with pending := s.pending }.raise (.resetDone cause epoch)

/-- The epoch a reset other than power-on sets (R127). -/
def State.nextEpoch (s : State) : Nat := next16 s.link.epoch

/-- A transmission of a source's reply has completed: the part reset of a RESET_PART from that source is taken now
(R114, R162). -/
def State.resetAfterReply (s : State) (src : Source) (straps : Straps) : State :=
  match s.resetPending with
  | some p =>
    if p.source = src then s.partReset (.command src .replySent) s.nextEpoch straps else s
  | none => s

/-- RESET_N goes low, or power-on ends with it low: every transmission ends without completion and every reception
is discarded; a pending reset ends (R163). The receive logic goes to its reset values, the kept length with it (DESIGN
CHOICE, log entry 19). -/
def State.holdInReset (s : State) (line : ResetLine) : State :=
  { s with
    ports := s.ports.map fun p => { p with reception := none }
    sender := { s.sender with inFlight := .nothing, wire := [] }
    receiver := .reset
    transmitter := { sending := .nothing, wire := [] }
    resetPending := none
    resetLine := line }

/-! ## Delivery and execution (sections 8.3 and 8.4) -/

/-- Read a record body of type COMMAND; `none` for another type (R148, R149, section 10.2). -/
def readCommand : List Byte → Option CommandRecord
  | kind :: sequence :: code :: arguments =>
    if kind == 0x01 then some { sequence, code, arguments } else none
  | _ => none

/-- Deliver a good command record to its source (R151): discarded at a full inbox, replayed or discarded when its
sequence is the cached one, else placed in the inbox. -/
def State.deliver (s : State) (src : Source) (record : CommandRecord) : State :=
  let x := s.source src
  if x.inbox.isSome then s.countSource src fun c => { c with inboxOverrun := bump c.inboxOverrun }
  else
    match x.cache.filter (·.sequence == record.sequence), x.slot with
    | some reply, none =>
      (s.modifySource src fun x => { x with slot := some reply }).countSource src fun c =>
        { c with replays := bump c.replays }
    | some _, some _ => s.countSource src fun c => { c with inboxOverrun := bump c.inboxOverrun }
    | none, _ => s.modifySource src fun x => { x with inbox := some record }

/-- A body that passed its length and its check: a COMMAND is delivered, another type is FRAMING (R148, R149). -/
def State.takeBody (s : State) (src : Source) (body : List Byte) : State :=
  match readCommand body with
  | some record =>
    (s.countSource src fun c => { c with goodRecords := bump c.goodRecords }).deliver src record
  | none => s.countSource src fun c => { c with framing := bump c.framing }

/-- A record of the right length: its covered bytes (the length byte and the body) against the check bytes that came
with them, then its body (R148, R149). -/
def State.judgeRecord (s : State) (src : Source) (covered check : List Byte) : State :=
  if checkBytes (recordCheck covered) = check then s.takeBody src (covered.drop 1)
  else s.countSource src fun c => { c with badCheck := bump c.badCheck }

/-- An inbox qualifies when it holds a record and its source's output slot is empty (R153). -/
def SourceState.qualifies (x : SourceState) : Bool := x.inbox.isSome && x.slot.isNone

/-- The arbiter's choice (R153): none while a reset is pending or no inbox qualifies. -/
def State.arbiterChoice (s : State) : Option Source :=
  if s.resetPending.isSome then none
  else
    match s.sourceLocal.qualifies, s.sourceRemote.qualifies with
    | true, true => if s.arbiter = some .localSource then some .remoteSource else some .localSource
    | true, false => some .localSource
    | false, true => some .remoteSource
    | false, false => none

/-- The source and the record the executor takes next (R153). -/
def State.nextRecord (s : State) : Option (Source × CommandRecord) :=
  s.arbiterChoice.bind fun src => (s.source src).inbox.map fun record => (src, record)

/-- What carrying out a command comes to: its status, the results of its reply, and the part after its effects
(R154 steps 2 to 4). -/
structure Execution where
  status : Status
  results : List Byte
  state : State
  deriving DecidableEq, Repr

/-- A refusal: nothing changes, and the reply carries the details the rule names (R154, R155). -/
def refuse (s : State) (status : Status) (details : List Byte) : Execution :=
  { status, results := details, state := s }

/-- Success with its results and effects. -/
def succeed (s : State) (results : List Byte) : Execution :=
  { status := .ok, results, state := s }

/-- The choice: the record leaves the inbox and the arbiter remembers the source (R153). -/
def State.takeRecord (s : State) (src : Source) : State :=
  { s.modifySource src fun x => { x with inbox := none } with arbiter := some src }

/-- The lease timer restarts when the source holds the lease (R154 step 6, R157). -/
def State.restartLease (s : State) (src : Source) : State :=
  if s.lease.holder = some src then { s with lease := { s.lease with timer := .running s.lease.time } } else s

/-- The end of an execution: the reply goes into the output slot and the cache, EXECUTED and NOT_OK move, the lease
timer restarts for the holder (R154 steps 4 to 6). -/
def State.reply (s : State) (src : Source) (reply : Reply) : State :=
  ((s.modifySource src fun x => { x with slot := some reply, cache := some reply }).countSource src fun c =>
    { c with executed := bump c.executed, notOk := if reply.status = .ok then c.notOk else bump c.notOk })
    |>.restartLease src

/-- Carry out one record from a source as one event (R154). -/
def State.execute (s : State) (src : Source) (record : CommandRecord)
    (run : Source → List Byte → State → Execution) : State :=
  let e := run src record.arguments (s.takeRecord src)
  e.state.reply src
    { sequence := record.sequence, code := record.code, status := e.status, results := e.results }

/-- An execution event of the executor: the arbiter's choice, when it takes a record whose code the row stands for,
is carried out (R153, R154). A choice that serves another row's record is no event of this row (log entry 6). -/
def State.serve (s : State) (codes : Byte → Bool) (run : Source → List Byte → State → Execution) :
    Host.Outcome State Fault Refusal :=
  match s.nextRecord with
  | some (src, record) => event s (codes record.code) (s.execute src record run)
  | none => event s false s

/-- The first check of a command marked lease: the source holds the edit lease (R155, R157). -/
def State.holdsLease (s : State) (src : Source) : Bool := s.lease.holder == some src

end Sys2Proof.Machine
end

