-- ==== Sys2Proof/Machine/ControlPort.lean ====
section
/-! DEFINITION. The control port line (sections 8.1 and 8.5): CHARACTER_RECEIVED, GAP_ABORT and
CONTROL_PORT_COMPLETION. -/

namespace Sys2Proof.Machine

/-- Change the receive logic. -/
def State.modifyReceiver (s : State) (f : Receiver → Receiver) : State := { s with receiver := f s.receiver }

/-- The record in reception ends: IDLE, the gap timer stops (R146 to R148). Position, length and record so far, which
those rules do not name here, keep their values in IDLE (DESIGN CHOICE, log entry 19). -/
def State.endReception (s : State) : State :=
  s.modifyReceiver fun x => { x with state := .idle, gapTimer := .stopped }

/-- A record is discarded as FRAMING (R146). -/
def State.discardFraming (s : State) : State :=
  s.endReception.countSource .localSource fun c => { c with framing := bump c.framing }

/-- A character in IDLE (R145). DESIGN CHOICE (log entry 19): the start character makes the length absent; R145 does not
name the length, and nothing reads it before the length character of the new record sets it. -/
def State.idleCharacter (s : State) (character : Byte) (stopBit : Bool) : State :=
  if stopBit && character == 0x7E then
    s.modifyReceiver fun _ =>
      { state := .inRecord, position := .length, length := none, record := [],
        gapTimer := .running Config.gapLimit }
  else s.countSource .localSource fun c => { c with noise := bump c.noise }

/-- A complete record: its check, then its body (R148). The record so far is the length character, the body and the
two check characters, low byte first. -/
def State.completeRecord (s : State) (record : List Byte) (length : Nat) : State :=
  s.endReception.judgeRecord .localSource (record.take (length + 1)) (record.drop (length + 1))

/-- A good character in IN_RECORD is added at its position and restarts the gap timer (R146, R147). -/
def State.recordCharacter (s : State) (character : Byte) : State :=
  let record := s.receiver.record ++ [character]
  match s.receiver.position with
  | .length =>
    if 3 ≤ character.toNat ∧ character.toNat ≤ 240 then
      s.modifyReceiver fun x =>
        { x with position := .body, length := some character.toNat, record, gapTimer := .running Config.gapLimit }
    else s.discardFraming
  | .body =>
    s.modifyReceiver fun x =>
      { x with
        position := if record.length = x.length.getD 0 + 1 then .check else .body
        record
        gapTimer := .running Config.gapLimit }
  | .check =>
    let length := s.receiver.length.getD 0
    if record.length = length + 3 then s.completeRecord record length
    else s.modifyReceiver fun x => { x with record, gapTimer := .running Config.gapLimit }

/-- A received character by receive state; a broken one in IN_RECORD discards the record as FRAMING (R145, R146). -/
def State.character (s : State) (character : Byte) (stopBit : Bool) : State :=
  match s.receiver.state with
  | .idle => s.idleCharacter character stopBit
  | .inRecord => if stopBit then s.recordCharacter character else s.discardFraming

/-- CHARACTER_RECEIVED (R145, R146, R148). -/
def execCharacterReceived (character : Byte) (stopBit : Bool) (s : State) : Host.Outcome State Fault Refusal :=
  event s true (s.character character stopBit)

/-- GAP_ABORT (R147): the gap timer runs out and the record is discarded. -/
def execGapAbort (s : State) : Host.Outcome State Fault Refusal :=
  event s s.receiver.gapTimer.isRunning
    (s.endReception.countSource .localSource fun c => { c with gapAbort := bump c.gapAbort })

/-- A transmission on CP_TXD completes (R156): a reply leaves the local output slot, and a pending reset of the local
source is taken (R162); a notice is marked sent if it is still held (R172). -/
def State.completePort (s : State) (straps : Straps) : State :=
  let free := { s with transmitter := { sending := .nothing, wire := [] } }
  match s.transmitter.sending with
  | .nothing => s
  | .reply =>
    (free.modifySource .localSource fun x => { x with slot := none }).resetAfterReply .localSource straps
  | .notice sequence => { free with notices := free.notices.markSent sequence }

/-- CONTROL_PORT_COMPLETION (R156): something is in transmission on CP_TXD. -/
def execControlPortCompletion (straps : Straps) (s : State) : Host.Outcome State Fault Refusal :=
  event s (s.transmitter.sending != .nothing) (s.completePort straps)

end Sys2Proof.Machine
end

