-- ==== Sys2Proof/Machine/CounterCommands.lean ====
section
/-! DEFINITION. COUNTERS_READ (section 9.5). -/

namespace Sys2Proof.Machine

/-- The counters of a route in the order of R65. -/
def RouteCounters.values (c : RouteCounters) : List Counter :=
  [c.framesAdmitted, c.framesClosed, c.heldOff, c.refused, c.aborted, c.abortedTruncated, c.abortedIdle,
    c.abortedStarved, c.abortedHold, c.abortedDamage, c.abortedDisabled, c.abortedPortLost, c.abortedPortOff,
    c.linesForwarded, c.sidesForwarded, c.damagedForwarded, c.filtered, c.overrunLines, c.skippedPackets,
    c.orphans, c.shortFrames, c.mismatches]

/-- The counters of a port in the order of R17. -/
def PortCounters.values (c : PortCounters) : List Counter :=
  [c.packets, c.headerErrors, c.unknownKind, c.unrouted, c.payloadErrors, c.longLines, c.markErrors, c.cutPackets,
    c.alignLosses]

/-- The trunk set: the sender's eight, then the link controller's six (section 9.5). -/
def TrunkCounters.values (c : TrunkCounters) : List Counter :=
  [c.recordsSent, c.repliesSent, c.noticesSent, c.resends, c.grants, c.creditClamped, c.grantErrors, c.stalls,
    c.locks, c.trainFails, c.signalLosses, c.retrains, c.halts, c.rxDiscarded]

/-- The counters of a source in the order of R165. -/
def SourceCounters.values (c : SourceCounters) : List Counter :=
  [c.noise, c.framing, c.gapAbort, c.badCheck, c.goodRecords, c.inboxOverrun, c.replays, c.executed, c.notOk,
    c.leaseExpiries]

/-- A counter set: the scope of COUNTERS_READ (R178, R179). -/
inductive CounterScope where
  | route (r : Fin 64)
  | port (p : Fin 4)
  | trunk
  | source (src : Source)
  deriving DecidableEq, Repr

/-- The counters of a set in the order of its table. -/
def State.counterSet (s : State) : CounterScope → List Counter
  | .route r => (s.route r).counters.values
  | .port p => (s.port p).counters.values
  | .trunk => s.trunkCounters.values
  | .source src => (s.source src).counters.values

/-- Every counter of a set becomes 0 (R179). -/
def State.clearSet (s : State) : CounterScope → State
  | .route r => s.countRoute r fun _ => {}
  | .port p => s.countPort p fun _ => {}
  | .trunk => s.countTrunk fun _ => {}
  | .source src => s.countSource src fun _ => {}

/-- Scope and number as the reply carries them, 0 for TRUNK (section 10.3). -/
def CounterScope.bytes : CounterScope → List Byte
  | .route r => [0, byte r.val]
  | .port p => [1, byte p.val]
  | .trunk => [2, 0]
  | .source src => [3, src.code]

/-- The scope and the clear choice of the arguments: `none` for a wrong length, `some none` for a value out of range
or a scope that names nothing (R179, R181). -/
def readScope (scope : Byte) (args : List Byte) : Option (Option (CounterScope × Bool)) :=
  let numbered (read : Byte → Option CounterScope) : Option (Option (CounterScope × Bool)) :=
    match args with
    | [number, choice] => some ((read number).bind fun set => (readFlag choice).map fun clear => (set, clear))
    | _ => none
  if scope = 0 then numbered fun b => (readRoute b).map .route
  else if scope = 1 then numbered fun b => (readPort b).map .port
  else if scope = 2 then
    match args with
    | [choice] => some ((readFlag choice).map fun clear => (.trunk, clear))
    | _ => none
  else if scope = 3 then numbered fun b => (readSource b).map .source
  else some none

/-- COUNTERS_READ (R179, R180): the values are taken, then CLEAR clears the set. -/
def countersRead (src : Source) (args : List Byte) (s : State) : Execution :=
  match args with
  | scope :: rest =>
    match readScope scope rest with
    | none => refuse s .badLength []
    | some none => refuse s .badArg []
    | some (some (set, clear)) =>
      if clear && !s.holdsLease src then refuse s .noLease []
      else
        succeed (if clear then s.clearSet set else s)
          (set.bytes ++ [flagByte clear] ++ (s.counterSet set).flatMap word32)
  | [] => refuse s .badLength []

/-- COUNTERS_READ, code 0x60. -/
def execCountersRead (s : State) : Host.Outcome State Fault Refusal := s.serve (· == 0x60) countersRead

end Sys2Proof.Machine
end

