-- ==== Sys2Proof/Machine/Executor.lean ====
section
/-! DEFINITION. The commands of the executor itself (sections 8.4 to 8.8): UNKNOWN_COMMAND, IDENTIFY, CLAIM, DROP,
LEASE_TIME and RESET_PART; and the expiries of the lease timer and the grace timer. A command is a function of
the source, the argument bytes and the part, in the order of checks its rule gives; `State.serve` does what is
common to all executions. -/

namespace Sys2Proof.Machine

/-- The command codes of section 10.3. -/
def commandCodes : List Byte :=
  [0x01, 0x02, 0x03, 0x04, 0x05, 0x10, 0x11, 0x20, 0x21, 0x22, 0x23, 0x24, 0x28, 0x29, 0x2A, 0x2B, 0x2C, 0x30,
    0x40, 0x41, 0x42, 0x43, 0x50, 0x51, 0x52, 0x53, 0x60]

/-- A code that names no command (R154, R181). -/
def unknownCommand (_ : Source) (_ : List Byte) (s : State) : Execution := refuse s .unknownCommand []

/-- UNKNOWN_COMMAND (R154). -/
def execUnknownCommand (s : State) : Host.Outcome State Fault Refusal :=
  s.serve (fun code => !commandCodes.contains code) unknownCommand

/-- What IDENTIFY reports (R161, section 10.3). -/
def State.identity (s : State) : List Byte :=
  word16 Config.partCode ++ [byte Config.siliconRevision] ++ word16 s.link.epoch ++ [holderCode s.lease.holder]
    ++ word16 s.lease.time ++ [s.rate.code, flagByte s.link.autoTrain, s.resetCause.code]
    ++ s.resetCause.detailBytes

/-- IDENTIFY (R161). -/
def identify (_ : Source) (args : List Byte) (s : State) : Execution :=
  if args.isEmpty then succeed s s.identity else refuse s .badLength []

/-- IDENTIFY, code 0x01. -/
def execIdentify (s : State) : Host.Outcome State Fault Refusal := s.serve (· == 0x01) identify

/-- The holder and the lease time, as CLAIM's reply carries them whatever its status (R158). -/
def Lease.report (lease : Lease) : List Byte := holderCode lease.holder :: word16 lease.time

/-- CLAIM (R158): granted to NONE and to the holder, refused to the other source. Its reply carries the report with
BAD_LENGTH too (DEDUCED, log entry 12). -/
def claim (src : Source) (args : List Byte) (s : State) : Execution :=
  if args.isEmpty then
    if s.lease.holder.all (· == src) then
      let s := { s with lease := { s.lease with holder := some src, timer := .running s.lease.time } }
      succeed s s.lease.report
    else refuse s .leaseHeld s.lease.report
  else refuse s .badLength s.lease.report

/-- CLAIM, code 0x02. -/
def execClaim (s : State) : Host.Outcome State Fault Refusal := s.serve (· == 0x02) claim

/-- DROP (R159): its reply carries the holder whatever its status (DEDUCED for BAD_LENGTH, log entry 12). -/
def drop (src : Source) (args : List Byte) (s : State) : Execution :=
  if args.isEmpty then
    if s.holdsLease src then
      let s := { s with lease := { s.lease with holder := none, timer := .stopped } }
      succeed s [holderCode s.lease.holder]
    else refuse s .wrongState [holderCode s.lease.holder]
  else refuse s .badLength [holderCode s.lease.holder]

/-- DROP, code 0x03. -/
def execDrop (s : State) : Host.Outcome State Fault Refusal := s.serve (· == 0x03) drop

/-- LEASE_TIME (R159). -/
def leaseTime (src : Source) (args : List Byte) (s : State) : Execution :=
  if s.holdsLease src then
    match args with
    | [lo, hi] =>
      match readRange 100 60000 (read16 lo hi) with
      | some time =>
        let s := { s with lease := { s.lease with time } }
        succeed s (word16 s.lease.time)
      | none => refuse s .badArg []
    | _ => refuse s .badLength []
  else refuse s .noLease []

/-- LEASE_TIME, code 0x04. -/
def execLeaseTime (s : State) : Host.Outcome State Fault Refusal := s.serve (· == 0x04) leaseTime

/-- RESET_PART (R162): the reply carries the epoch in force and the one the reset will set; the reset becomes pending
with its grace timer. -/
def resetPart (src : Source) (args : List Byte) (s : State) : Execution :=
  if s.holdsLease src then
    if args.isEmpty then
      succeed { s with resetPending := some { source := src, grace := .running Config.resetGrace } }
        (word16 s.link.epoch ++ word16 s.nextEpoch)
    else refuse s .badLength []
  else refuse s .noLease []

/-- RESET_PART, code 0x05. -/
def execResetPart (s : State) : Host.Outcome State Fault Refusal := s.serve (· == 0x05) resetPart

/-! ## Expiries -/

/-- The lease expires (R160). -/
def State.expireLease (s : State) : State :=
  match s.lease.holder with
  | some src =>
    ({ s with lease := { s.lease with holder := none, timer := .stopped } }.countSource src fun c =>
      { c with leaseExpiries := bump c.leaseExpiries }).raise (.leaseLost src)
  | none => { s with lease := { s.lease with timer := .stopped } }

/-- LEASE_EXPIRY (R160): the lease timer runs. -/
def execLeaseExpiry (s : State) : Host.Outcome State Fault Refusal :=
  event s s.lease.timer.isRunning s.expireLease

/-- The grace expires: the part reset is taken with detail GRACE (R162, R163). -/
def State.expireGrace (s : State) (straps : Straps) : State :=
  match s.resetPending with
  | some p => s.partReset (.command p.source .grace) s.nextEpoch straps
  | none => s

/-- GRACE_EXPIRY (R162): a reset is pending and its grace timer runs. -/
def execGraceExpiry (straps : Straps) (s : State) : Host.Outcome State Fault Refusal :=
  event s (s.resetPending.any (·.grace.isRunning)) (s.expireGrace straps)

end Sys2Proof.Machine
end

