-- ==== Sys2Proof/Machine/Ingress.lean ====
section
/-! DEFINITION. The events of the ingress ports and of the frame assemblers (chapters 1 and 3): ALIGNMENT_ACHIEVED,
ALIGNMENT_LOST, HEADER_EVENT, BYTES_RECEIVED, END_EVENT and FRAME_IDLE_EXPIRY. -/

namespace Sys2Proof.Machine

/-! ## Alignment (section 1.2) -/

/-- Cut the packet in reception, if any: the record is removed and CUT_PACKETS moves (R5, R8). -/
def State.cutReception (s : State) (p : Fin 4) : State :=
  if (s.port p).reception.isSome then
    (s.modifyPort p fun x => { x with reception := none }).countPort p fun c =>
      { c with cutPackets := bump c.cutPackets }
  else s

/-- Visit the sixteen routes of a port in ascending route number (R6, R8). -/
def State.visitRoutes (s : State) (p : Fin 4) (reason : AbortReason) : State :=
  (List.finRange 16).foldl (fun s channel => s.endIngressFrame (routeOf p channel) reason) s

/-- Loss of alignment on an ACTIVE port, in the order of R5. -/
def State.loseActivePort (s : State) (p : Fin 4) : State :=
  let s := (s.modifyPort p fun x => { x with aligned := false, state := .lost }).countPort p fun c =>
    { c with alignLosses := bump c.alignLosses }
  ((s.cutReception p).visitRoutes p .portLost).raise (.portLost p)

/-- Loss of alignment by port state: R5 in ACTIVE; in SEEKING and LOST aligned becomes no and a discarded packet ends
without being counted (R4; for LOST DEDUCED from R7, log entry 16). -/
def State.alignmentLost (s : State) (p : Fin 4) : State :=
  match (s.port p).state with
  | .active => s.loseActivePort p
  | _ => s.modifyPort p fun x => { x with aligned := false, reception := none }

/-- ALIGNMENT_ACHIEVED (R2, R4, R7): no alignment event arrives at an OFF port. -/
def execAlignmentAchieved (p : Fin 4) (s : State) : Host.Outcome State Fault Refusal :=
  event s ((s.port p).state != .off) (s.modifyPort p fun x => { x with aligned := true })

/-- ALIGNMENT_LOST (R4, R5, R7): no alignment event arrives at an OFF port (R2, R8). -/
def execAlignmentLost (p : Fin 4) (s : State) : Host.Outcome State Fault Refusal :=
  event s ((s.port p).state != .off) (s.alignmentLost p)

/-! ## Headers of line and side packets at a route (section 3.3) -/

/-- Whether a content code is a line packet's (R10). -/
def isLineCode (code : Nat) : Bool := 0x10 ≤ code

/-- Change the open frame of an ASSEMBLING route. -/
def State.modifyFrame (s : State) (r : Fin 64) (f : OpenFrame → OpenFrame) : State :=
  match (s.route r).assembly with
  | .assembling frame line => s.setAssembly r (.assembling (f frame) line)
  | _ => s

/-- Give a route a line in assembly. A route has no other line when a header arrives (R79); `freeLine` returns one
that a state no run reaches might hold (DESIGN CHOICE, log entry 17). -/
def State.setLine (s : State) (r : Fin 64) (line : LineInAssembly) : State :=
  let s := s.freeLine r
  match (s.route r).assembly with
  | .assembling frame _ => s.setAssembly r (.assembling frame (some line))
  | _ => s

/-- The allocation test (R78): segments free, within the route's cap, and a free descriptor. -/
def State.canAllocate (s : State) (r : Fin 64) (segments : Nat) : Bool :=
  segments ≤ s.pool.freeSegments
    && (s.route r).heldSegments + segments ≤ (s.route r).config.cap
    && 1 ≤ s.pool.freeDescriptors

/-- The LONG test of a new line in assembly (R11). -/
def State.testLong (s : State) (p : Fin 4) (r : Fin 64) (header : PacketHeader) : State :=
  match (s.route r).assembly with
  | .assembling frame _ =>
    if isLineCode header.code && frame.declaredBytes < header.length then
      (s.modifyPort p fun x => { x with reception := x.reception.map fun y => { y with long := true } }).countPort p
        fun c => { c with longLines := bump c.longLines }
    else s
  | _ => s

/-- Step 4 of a header (R53, R78, R79): the packet takes its segments and a descriptor and becomes the line in
assembly, or its frame aborts STARVED and the packet is skipped. -/
def State.allocate (s : State) (p : Fin 4) (r : Fin 64) (header : PacketHeader) : State :=
  let segments := segmentsFor header.length
  if s.canAllocate r segments then
    (((s.setLine r { code := header.code, segments, payload := [] }).takeSegments r segments).takeDescriptors
      1).testLong p r header
  else
    (s.abort r .starved).countRoute r fun c => { c with skippedPackets := bump c.skippedPackets }

/-- Step 3 of a header: the filter (R52). -/
def State.filterPacket (s : State) (p : Fin 4) (r : Fin 64) (header : PacketHeader) : State :=
  let filter := (s.route r).config.filter
  if !filter.isEmpty && !filter.contains header.code then
    s.countRoute r fun c => { c with filtered := bump c.filtered }
  else s.allocate p r header

/-- Step 2 of a header: lines are counted, and one beyond the declared lines is an overrun line (R51). -/
def State.countLine (s : State) (p : Fin 4) (r : Fin 64) (header : PacketHeader) (frame : OpenFrame) : State :=
  if isLineCode header.code then
    if frame.received < frame.declaredLines then
      (s.modifyFrame r fun f => { f with received := f.received + 1 }).filterPacket p r header
    else
      (s.modifyFrame r fun f => { f with overrun := true }).countRoute r fun c =>
        { c with overrunLines := bump c.overrunLines }
  else s.filterPacket p r header

/-- The header of a line or side packet at an ASSEMBLING route, beginning with the CONTENT hold-point test (R50): TAG
aborts the frame and skips the packet, FORCE moves the gate and the header goes on. -/
def State.assembleHeader (s : State) (p : Fin 4) (r : Fin 64) (header : PacketHeader) (frame : OpenFrame) : State :=
  match (s.route r).armedFor (.content header.code) with
  | some h =>
    let s := s.fireHoldPoint r frame.number h
    match h.kind with
    | .tag =>
      (s.abort r .hold).countRoute r fun c => { c with skippedPackets := bump c.skippedPackets }
    | .force => (s.forceGate r).countLine p r header frame
  | none => s.countLine p r header frame

/-- A header event at a route (R40, R41, R54): the timer stops; a mark does nothing more; a line or side packet is
taken by the assembly state. -/
def State.routeHeader (s : State) (p : Fin 4) (r : Fin 64) (header : PacketHeader) : State :=
  let s := s.stopIdleTimer r
  if header.code < 0x08 then s
  else
    match (s.route r).assembly with
    | .assembling frame _ => s.assembleHeader p r header frame
    | .skipping => s.countRoute r fun c => { c with skippedPackets := bump c.skippedPackets }
    | .idle => s.countRoute r fun c => { c with orphans := bump c.orphans }

/-! ## Headers at a port (section 1.3) -/

/-- A new packet in reception (R1). -/
def newReception (header : Option PacketHeader) (disposition : Disposition) : Reception :=
  { header, disposition, received := 0, long := false, check := check16Start, tail := [], head := [],
    disabledMeanwhile := false }

/-- Make the packet in reception of a port. -/
def State.receive (s : State) (p : Fin 4) (header : Option PacketHeader) (disposition : Disposition) : State :=
  s.modifyPort p fun x => { x with reception := some (newReception header disposition) }

/-- A good header at a SEEKING or LOST port moves it to ACTIVE and raises PORT_UP (R4, R7). -/
def State.activatePort (s : State) (p : Fin 4) : State :=
  match (s.port p).state with
  | .active => s
  | _ => (s.modifyPort p fun x => { x with state := .active }).raise (.portUp p (s.port p).lanes)

/-- Classify a packet whose header passed (R10). -/
def State.classify (s : State) (p : Fin 4) (header : PacketHeader) : State :=
  let r := routeOf p header.channel
  if 0x02 ≤ header.code ∧ header.code ≤ 0x07 then
    (s.receive p (some header) .unknownKind).countPort p fun c => { c with unknownKind := bump c.unknownKind }
  else if (s.route r).gate = .disabled then
    (s.receive p (some header) .unrouted).countPort p fun c => { c with unrouted := bump c.unrouted }
  else (s.receive p (some header) .toRoute).routeHeader p r header

/-- A header event (R4, R7, R9, R10). -/
def State.headerArrives (s : State) (p : Fin 4) (header : Header) : State :=
  if headerPasses header then
    ((s.activatePort p).countPort p fun c => { c with packets := bump c.packets }).classify p (headerFields header)
  else
    (s.receive p none .headerError).countPort p fun c => { c with headerErrors := bump c.headerErrors }

/-- HEADER_EVENT (R9): a port that is not OFF, aligned, with no packet in reception (R1, R2). -/
def execHeaderEvent (p : Fin 4) (header : Header) (s : State) : Host.Outcome State Fault Refusal :=
  event s ((s.port p).state != .off && (s.port p).aligned && (s.port p).reception.isNone)
    (s.headerArrives p header)

/-! ## Payload bytes (R11, R12) -/

/-- The bytes that now count as payload: all delivered so far but the last two (R12). -/
def Reception.settled (x : Reception) (bytes : List Byte) : List Byte :=
  (x.tail ++ bytes).take ((x.tail ++ bytes).length - 2)

/-- The packet in reception after more bytes (R12). -/
def Reception.deliver (x : Reception) (bytes : List Byte) : Reception :=
  { x with
    received := min (x.received + bytes.length) Config.max16
    check := check16From x.check (x.settled bytes)
    tail := (x.tail ++ bytes).drop ((x.tail ++ bytes).length - 2)
    head := (x.head ++ x.settled bytes).take 6 }

/-- Write payload bytes into the segments of a line in assembly, up to the header length (R11, R58). -/
def State.writePayload (s : State) (r : Fin 64) (length : Nat) (bytes : List Byte) : State :=
  match (s.route r).assembly with
  | .assembling frame (some line) =>
    s.setAssembly r (.assembling frame (some { line with payload := (line.payload ++ bytes).take length }))
  | _ => s

/-- Bytes of the packet in reception arrive. -/
def State.bytesArrive (s : State) (p : Fin 4) (bytes : List Byte) : State :=
  match (s.port p).reception with
  | some x =>
    let s := match x.disposition, x.header with
      | .toRoute, some header =>
        s.writePayload (routeOf p header.channel) header.length (x.settled bytes)
      | _, _ => s
    s.modifyPort p fun y => { y with reception := some (x.deliver bytes) }
  | none => s

/-- BYTES_RECEIVED (R12): a packet is in reception. -/
def execBytesReceived (p : Fin 4) (bytes : List Byte) (s : State) : Host.Outcome State Fault Refusal :=
  event s (s.port p).reception.isSome (s.bytesArrive p bytes)

/-! ## Admission (sections 3.2 and 4.4) -/

/-- The fields of an opening mark (R10, R183). -/
structure OpeningMark where
  number : Nat
  declaredLines : Nat
  declaredBytes : Nat
  deriving DecidableEq, Repr

/-- The admission test (R75). -/
def State.canAdmit (s : State) (r : Fin 64) : Bool :=
  (s.route r).config.floor ≤ s.pool.freeSegments
    && (s.route r).heldSegments + (s.route r).config.floor ≤ (s.route r).config.cap
    && 2 ≤ s.pool.freeDescriptors

/-- The open-frame record of a frame at its admission (R47 step 3). -/
def OpeningMark.openFrame (mark : OpeningMark) (mode : Mode) : OpenFrame :=
  { number := mark.number, declaredLines := mark.declaredLines, declaredBytes := mark.declaredBytes,
    received := 0, forwarded := 0, damagedLines := false, overrun := false,
    sealValue := match mode with | .sealed => some sealStart | .plain => none }

/-- Admit a frame, steps 1 to 5 of R47. -/
def State.admitFrame (s : State) (r : Fin 64) (mark : OpeningMark) : State :=
  let mode := (s.route r).config.mode
  (((s.takeDescriptors 2).enqueue r 0
    (.opening mode mark.number mark.declaredLines mark.declaredBytes)).setAssembly r
    (.assembling (mark.openFrame mode) none)).modifyRoute r fun x =>
      { x with
        idleTimer := .running x.config.idleLimit
        refusalRun := false
        counters := { x.counters with framesAdmitted := bump x.counters.framesAdmitted } }

/-- Refuse a frame (R48): SKIPPING, REFUSED, and one FRAME_REFUSED for a run of refusals (R77). -/
def State.refuseFrame (s : State) (r : Fin 64) (mark : OpeningMark) : State :=
  let flagged := (s.route r).refusalRun
  let s := s.modifyRoute r fun x =>
    { x with
      assembly := .skipping
      refusalRun := true
      counters := { x.counters with refused := bump x.counters.refused } }
  if flagged then s else s.raise (.frameRefused r mark.number)

/-- Hold a frame off (R45, R46): SKIPPING and HELD_OFF. -/
def State.holdOff (s : State) (r : Fin 64) : State :=
  (s.setAssembly r .skipping).countRoute r fun c => { c with heldOff := bump c.heldOff }

/-- The hold point that a good opening mark fires (R46): an armed FRAME_NUMBER one of its number, when the mark comes to
the test. It comes there under OPEN, and under STEPPING at a route that is not ASSEMBLING; at an ASSEMBLING one the
truncation makes the gate SHUT first (R49). -/
def Route.firedByMark (x : Route) (number : Nat) : Option HoldPoint :=
  match x.gate, x.assembly with
  | .opened, _ | .stepping, .idle | .stepping, .skipping => x.armedFor (.frameNumber number)
  | _, _ => none

/-- A frame at a gate OPEN or STEPPING, with the hold point it fired: held off by a TAG, else tried for admission, with
FORCE's gate effect when it is admitted (R46 to R48, R94, R100, R101). -/
def State.tryFrame (s : State) (r : Fin 64) (mark : OpeningMark) (fired : Option HoldPoint) : State :=
  match fired.map HoldPoint.kind with
  | some .tag => (s.shutGate r .tag (some mark.number)).holdOff r
  | some .force => if s.canAdmit r then (s.admitFrame r mark).forceGate r else s.refuseFrame r mark
  | none => if s.canAdmit r then s.admitFrame r mark else s.refuseFrame r mark

/-- A fresh frame meets the gate (R45): tried under OPEN and STEPPING, held off under SHUT. It finds CLOSING or DISABLED
in no state that a run reaches, and is held off there (DESIGN CHOICE, log entry 17). -/
def State.meetGate (s : State) (r : Fin 64) (mark : OpeningMark) (fired : Option HoldPoint) : State :=
  match (s.route r).gate with
  | .opened | .stepping => s.tryFrame r mark fired
  | .shut | .closing | .disabled => s.holdOff r

/-- The hold point that fires, if one does (R99). -/
def State.fire (s : State) (r : Fin 64) (frame : Nat) : Option HoldPoint → State
  | some h => s.fireHoldPoint r frame h
  | none => s

/-- A good opening mark at a route (R43 to R49): it truncates an open frame or ends a skip, then meets the gate. A hold
point that it fires fires before the truncation, so that HOLD_FIRED stands first among the notices of the event
(R93, R99); firing touches nothing that the truncation reads or writes but the notice queue. -/
def State.openingMark (s : State) (r : Fin 64) (mark : OpeningMark) : State :=
  let fired := (s.route r).firedByMark mark.number
  ((s.fire r mark.number fired).endIngressFrame r .truncated).meetGate r mark fired

/-! ## Packet ends and closing marks (sections 3.4 and 3.5) -/

/-- Forward the line in assembly (R57 to R59): its record is queued with the descriptor and segments it holds. -/
def State.forward (s : State) (r : Fin 64) (frame : OpenFrame) (line : LineInAssembly) (damaged long : Bool) :
    State :=
  let config := (s.route r).config
  let frame := { frame with sealValue := frame.sealValue.map fun v => sealFrom v line.payload }
  if isLineCode line.code then
    let index := frame.forwarded + 1
    ((s.enqueue r line.segments
      (.line (config.overrideCode.getD line.code) damaged long index line.payload)).setAssembly r
      (.assembling { frame with forwarded := index } none)).countRoute r fun c =>
        { c with linesForwarded := bump c.linesForwarded }
  else
    ((s.enqueue r line.segments (.side line.code damaged line.payload)).setAssembly r
      (.assembling frame none)).countRoute r fun c => { c with sidesForwarded := bump c.sidesForwarded }

/-- The damage policy on a damaged line in assembly (R57). -/
def State.applyPolicy (s : State) (r : Fin 64) (frame : OpenFrame) (line : LineInAssembly) (long : Bool) : State :=
  match (s.route r).config.policy with
  | .abort => s.abort r .damage
  | .forward =>
    (s.forward r { frame with damagedLines := true } line true long).countRoute r fun c =>
      { c with damagedForwarded := bump c.damagedForwarded }

/-- A damaged line in assembly: the DAMAGE hold-point test (R56), then the damage policy. -/
def State.damagedLine (s : State) (r : Fin 64) (frame : OpenFrame) (line : LineInAssembly) (long : Bool) : State :=
  match (s.route r).armedFor .damage with
  | some h =>
    let s := s.fireHoldPoint r frame.number h
    match h.kind with
    | .tag => s.abort r .hold
    | .force => (s.forceGate r).applyPolicy r frame line long
  | none => s.applyPolicy r frame line long

/-- A packet end at a route (R55 to R58). -/
def State.packetEnd (s : State) (r : Fin 64) (damaged long : Bool) : State :=
  match (s.route r).assembly with
  | .assembling frame (some line) =>
    if damaged then s.damagedLine r frame line long else s.forward r frame line false false
  | _ => s

/-- Close the open frame, steps 1 to 4 of R60. A closing mark never finds a line in assembly; `freeLine` returns one
that a state no run reaches might hold (DESIGN CHOICE, log entry 17). -/
def State.closeFrame (s : State) (r : Fin 64) (frame : OpenFrame) (number : Nat) : State :=
  let short := frame.isShort
  let mismatch := frame.isMismatch number
  (((((s.freeLine r).enqueue r 0
    (.closing frame.damagedLines frame.overrun mismatch short frame.number frame.forwarded
      frame.sealValue)).countRoute r fun c =>
      { c with
        framesClosed := bump c.framesClosed
        shortFrames := if short then bump c.shortFrames else c.shortFrames
        mismatches := if mismatch then bump c.mismatches else c.mismatches }).setAssembly r .idle).stopIdleTimer
    r).frameEndStep r frame.number

/-- A good closing mark at a route (R60, R61). -/
def State.closingMark (s : State) (r : Fin 64) (number : Nat) : State :=
  match (s.route r).assembly with
  | .assembling frame _ => s.closeFrame r frame number
  | .skipping =>
    ((s.setAssembly r .idle).stopIdleTimer r).countRoute r fun c =>
      { c with skippedPackets := bump c.skippedPackets }
  | .idle => s.countRoute r fun c => { c with orphans := bump c.orphans }

/-! ## Packet ends at a port (section 1.3) -/

/-- The payload check matches: two check bytes came, and they equal the running check (R12). -/
def Reception.checkMatches (x : Reception) : Bool :=
  match x.tail with
  | [lo, hi] => x.check.toNat == read16 lo hi
  | _ => false

/-- The payload byte count (R12). -/
def Reception.payloadCount (x : Reception) : Nat := x.received - 2

/-- The packet delivered the payload its header declares, with a matching check (R12, R13). -/
def Reception.intact (x : Reception) (header : PacketHeader) : Bool :=
  x.checkMatches && x.payloadCount == header.length

/-- The fields of a good opening mark (R13, R183). -/
def Reception.openingMark (x : Reception) (header : PacketHeader) : Option OpeningMark :=
  match x.head with
  | [n0, n1, l0, l1, b0, b1] =>
    let mark : OpeningMark :=
      { number := read16 n0 n1, declaredLines := read16 l0 l1, declaredBytes := read16 b0 b1 }
    if x.intact header && header.length == 6 && 1 ≤ mark.declaredLines && mark.declaredLines ≤ 4095
      && 1 ≤ mark.declaredBytes && mark.declaredBytes ≤ 8192 then some mark else none
  | _ => none

/-- The frame number of a good closing mark (R13, R183). -/
def Reception.closingMark (x : Reception) (header : PacketHeader) : Option Nat :=
  match x.head with
  | [n0, n1] => if x.intact header && header.length == 2 then some (read16 n0 n1) else none
  | _ => none

/-- A mark that is not good moves MARK_ERRORS, and the route is told only that reception ended (R13). -/
def State.badMark (s : State) (p : Fin 4) : State :=
  s.countPort p fun c => { c with markErrors := bump c.markErrors }

/-- The end of a TO_ROUTE packet: a mark is checked (R13), a line or side packet gets its verdict (R12), and the
route's frame idle timer starts (R41). -/
def State.endAtRoute (s : State) (p : Fin 4) (x : Reception) (header : PacketHeader) : State :=
  let r := routeOf p header.channel
  let s :=
    if header.code = 0x00 then
      match x.openingMark header with
      | some mark => s.openingMark r mark
      | none => s.badMark p
    else if header.code < 0x08 then
      match x.closingMark header with
      | some number => s.closingMark r number
      | none => s.badMark p
    else
      let s := if x.intact header then s else s.countPort p fun c => { c with payloadErrors := bump c.payloadErrors }
      s.packetEnd r (!x.intact header || x.long) x.long
  s.startIdleTimer r

/-- The end of the packet in reception by its disposition (R9, R10, R12 to R14). -/
def State.packetEnds (s : State) (p : Fin 4) : State :=
  match (s.port p).reception with
  | some x =>
    let s := s.modifyPort p fun y => { y with reception := none }
    match x.disposition, x.header with
    | .toRoute, some header => s.endAtRoute p x header
    | .unrouted, _ =>
      if x.disabledMeanwhile then s.countPort p fun c => { c with unrouted := bump c.unrouted } else s
    | _, _ => s
  | none => s

/-- END_EVENT (R12): a packet is in reception. -/
def execEndEvent (p : Fin 4) (s : State) : Host.Outcome State Fault Refusal :=
  event s (s.port p).reception.isSome (s.packetEnds p)

/-! ## Frame idle expiry -/

/-- FRAME_IDLE_EXPIRY (R41): the timer runs; an open frame aborts IDLE, a skip ends. -/
def execFrameIdleExpiry (r : Fin 64) (s : State) : Host.Outcome State Fault Refusal :=
  event s (s.route r).idleTimer.isRunning (s.endIngressFrame r .idle)

end Sys2Proof.Machine
end

