-- ==== Sys2Proof/Machine/RouteCommands.lean ====
section
/-! DEFINITION. The route commands (section 2.5): ROUTE_READ, ROUTE_WRITE, ROUTE_ENABLE, ROUTE_DISABLE and
TABLE_SCAN. -/

namespace Sys2Proof.Machine

/-! ## Layouts (section 10.3) -/

/-- The configuration block, 15 bytes. -/
def RouteConfig.block (config : RouteConfig) : List Byte :=
  [byte config.trunkChannel, config.mode.code, byte config.filter.length]
    ++ ((config.filter.map byte) ++ [0, 0, 0, 0]).take 4
    ++ [byte (config.overrideCode.getD 0), config.policy.code] ++ word16 config.cap ++ word16 config.floor
    ++ word16 config.idleLimit

/-- A hold point: kind, condition, value, armed flag, 5 bytes. -/
def HoldPoint.bytes (h : HoldPoint) : List Byte :=
  [h.kind.code, h.condition.name.code] ++ word16 h.condition.value ++ [flagByte h.armed]

/-- An optional hold point: its presence byte and its five bytes. -/
def holdPointBytes (holdPoint : Option HoldPoint) : List Byte :=
  match holdPoint with
  | some h => 1 :: h.bytes
  | none => [0, 0, 0, 0, 0, 0]

/-- The line in assembly: presence, content code, segment count. -/
def Assembly.lineBytes : Assembly → List Byte
  | .assembling _ (some line) => [1, byte line.code, byte line.segments]
  | _ => [0, 0, 0]

/-- The open-frame record: presence, frame number, declared lines, declared line bytes, lines received, lines
forwarded, flags, and the seal with its presence byte. -/
def Assembly.frameBytes : Assembly → List Byte
  | .assembling frame _ =>
    1 :: word16 frame.number ++ word16 frame.declaredLines ++ word16 frame.declaredBytes
      ++ word16 frame.received ++ word16 frame.forwarded ++ [frame.flags]
      ++ presence frame.sealValue.isSome (word32 (frame.sealValue.getD 0).toNat)
  | _ => List.replicate 17 0

/-- What ROUTE_READ reports of an entry (R27). -/
def Route.report (x : Route) : List Byte :=
  x.config.block ++ holdPointBytes x.holdPoint ++ [x.gate.code, x.assembly.code] ++ word16 x.heldSegments
    ++ [flagByte x.refusalRun] ++ x.assembly.lineBytes ++ x.assembly.frameBytes

/-! ## ROUTE_READ -/

/-- ROUTE_READ (R27). -/
def routeRead (_ : Source) (args : List Byte) (s : State) : Execution :=
  match args with
  | [route] =>
    match readRoute route with
    | some r => succeed s (s.route r).report
    | none => refuse s .badArg []
  | _ => refuse s .badLength []

/-- ROUTE_READ, code 0x20. -/
def execRouteRead (s : State) : Host.Outcome State Fault Refusal := s.serve (· == 0x20) routeRead

/-! ## The two laws of the table -/

/-- The first condition of the sealed rule that an entry of mode SEALED breaks, by its code: filter list 1,
override 2, trunk channel 3 (R25, section 10.2). -/
def RouteConfig.sealedBreach (config : RouteConfig) (r : Fin 64) : Option Byte :=
  match config.mode with
  | .plain => none
  | .sealed =>
    if !config.filter.isEmpty then some 1
    else if config.overrideCode.isSome then some 2
    else if config.trunkChannel ≠ r.val then some 3
    else none

/-- The lowest route other than `r` whose gate is not DISABLED and that holds a trunk channel (R26). -/
def State.channelHolder (s : State) (r : Fin 64) (channel : Nat) : Option (Fin 64) :=
  (List.finRange 64).find? fun k =>
    k != r && (s.route k).gate != .disabled && (s.route k).config.trunkChannel == channel

/-! ## ROUTE_WRITE -/

/-- Checks 4 to 7 of R29 and the write of R30 for an entry whose values are in range. The gate state that every refusal
carries is also check 4's detail (DEDUCED, log entry 14). -/
def writeRoute (s : State) (r : Fin 64) (config : RouteConfig) : Execution :=
  let x := s.route r
  let details := [byte r.val, x.gate.code]
  if x.gate ≠ .disabled ∧ x.gate ≠ .shut then refuse s .wrongState details
  else if config.cap < x.heldSegments then refuse s .wrongState (details ++ word16 x.heldSegments)
  else
    match config.sealedBreach r with
    | some condition => refuse s .sealedRule (details ++ [condition])
    | none =>
      match (if x.gate = .shut ∧ config.trunkChannel ≠ x.config.trunkChannel then
          s.channelHolder r config.trunkChannel else none) with
      | some holder => refuse s .clash (details ++ [byte holder.val])
      | none =>
        let s := s.modifyRoute r fun x => { x with config }
        succeed s (details ++ (s.route r).config.block)

/-- ROUTE_WRITE (R28 to R30, R181): a selection that names no field is BAD_ARG whatever follows it. -/
def routeWrite (src : Source) (args : List Byte) (s : State) : Execution :=
  if s.holdsLease src then
    match args with
    | route :: selection :: values =>
      if selection = 0 then refuse s .badArg []
      else
        match readEdit selection values with
        | none => refuse s .badLength []
        | some edit =>
          match readRoute route with
          | none => refuse s .badArg []
          | some r =>
            match (s.route r).config.edited edit with
            | none => refuse s .badArg []
            | some config => writeRoute s r config
    | _ => refuse s .badLength []
  else refuse s .noLease []

/-- ROUTE_WRITE, code 0x21. -/
def execRouteWrite (s : State) : Host.Outcome State Fault Refusal := s.serve (· == 0x21) routeWrite

/-! ## ROUTE_ENABLE and ROUTE_DISABLE -/

/-- ROUTE_ENABLE (R31). -/
def routeEnable (src : Source) (args : List Byte) (s : State) : Execution :=
  if s.holdsLease src then
    match args with
    | [route] =>
      match readRoute route with
      | none => refuse s .badArg []
      | some r =>
        let x := s.route r
        if x.gate ≠ .disabled then refuse s .wrongState [x.gate.code]
        else
          match s.channelHolder r x.config.trunkChannel with
          | some holder => refuse s .clash [byte holder.val]
          | none =>
            succeed (s.modifyRoute r fun x => { x with gate := .opened })
              [byte r.val, byte x.config.trunkChannel, Gate.opened.code]
    | _ => refuse s .badLength []
  else refuse s .noLease []

/-- ROUTE_ENABLE, code 0x22. -/
def execRouteEnable (s : State) : Host.Outcome State Fault Refusal := s.serve (· == 0x22) routeEnable

/-- A packet of the route in reception with disposition TO_ROUTE becomes UNROUTED, to be counted at its end
(R14, R33). -/
def Reception.unroute (x : Reception) (r : Fin 64) : Reception :=
  if x.disposition = .toRoute ∧ x.header.any (·.channel == channelOf r) then
    { x with disposition := .unrouted, disabledMeanwhile := true }
  else x

/-- Take a route that is not DISABLED out of service (R33, R34). -/
def State.disableRoute (s : State) (r : Fin 64) : State :=
  (((s.endIngressFrame r .disabled).stopIdleTimer r).modifyRoute r fun x =>
    { x with gate := .disabled, refusalRun := false }).modifyPort (portOf r) fun p =>
      { p with reception := p.reception.map (·.unroute r) }

/-- The frame fields of ROUTE_DISABLE's reply: presence, frame number, lines forwarded. -/
def Assembly.abortedBytes : Assembly → List Byte
  | .assembling frame _ => 1 :: word16 frame.number ++ word16 frame.forwarded
  | _ => [0, 0, 0, 0, 0]

/-- ROUTE_DISABLE (R33). -/
def routeDisable (src : Source) (args : List Byte) (s : State) : Execution :=
  if s.holdsLease src then
    match args with
    | [route] =>
      match readRoute route with
      | none => refuse s .badArg []
      | some r =>
        let x := s.route r
        let results := [byte r.val, x.gate.code, x.assembly.code] ++ x.assembly.abortedBytes
        succeed (if x.gate = .disabled then s else s.disableRoute r) results
    | _ => refuse s .badLength []
  else refuse s .noLease []

/-- ROUTE_DISABLE, code 0x23. -/
def execRouteDisable (s : State) : Host.Outcome State Fault Refusal := s.serve (· == 0x23) routeDisable

/-! ## TABLE_SCAN -/

/-- The routes in service, in ascending route number (R36). -/
def State.routesInService (s : State) : List (Fin 64) :=
  (List.finRange 64).filter fun r => (s.route r).gate != .disabled

/-- One entry of the listing: route, trunk channel, gate (R36). -/
def State.scanEntry (s : State) (r : Fin 64) : List Byte :=
  [byte r.val, byte (s.route r).config.trunkChannel, (s.route r).gate.code]

/-- TABLE_SCAN (R36). -/
def tableScan (_ : Source) (args : List Byte) (s : State) : Execution :=
  if args.isEmpty then
    succeed s (byte s.routesInService.length :: s.routesInService.flatMap s.scanEntry)
  else refuse s .badLength []

/-- TABLE_SCAN, code 0x24. -/
def execTableScan (s : State) : Host.Outcome State Fault Refusal := s.serve (· == 0x24) tableScan

end Sys2Proof.Machine
end

