-- ==== Sys2Proof/Machine/GateCommands.lean ====
section
/-! DEFINITION. The gate and hold-point commands (chapter 5): HOLD, RELEASE, STEP, HOLDPOINT_SET and
HOLDPOINT_CLEAR. -/

namespace Sys2Proof.Machine

/-! ## HOLD, RELEASE and STEP -/

/-- The frame number of an ASSEMBLING route (R88). -/
def Assembly.frameNumber : Assembly → Option Nat
  | .assembling frame _ => some frame.number
  | _ => none

/-- The results of HOLD, RELEASE and STEP: route, gate before, gate after, assembly state, and the open frame's
number with its presence byte (R88, section 10.3). -/
def gateResults (r : Fin 64) (before after : Route) : List Byte :=
  [byte r.val, before.gate.code, after.gate.code, after.assembly.code]
    ++ presence after.assembly.frameNumber.isSome (word16 (after.assembly.frameNumber.getD 0))

/-- The checks of R88 around a gate move, which is `none` where the gate does not permit the command. The results are
carried whatever the status when the arguments are exactly one route number. -/
def gateCommand (move : State → Fin 64 → Option State) (src : Source) (args : List Byte) (s : State) : Execution :=
  let route := match args with
    | [route] => readRoute route
    | _ => none
  let details := match route with
    | some r => gateResults r (s.route r) (s.route r)
    | none => []
  if s.holdsLease src then
    if args.length = 1 then
      match route with
      | none => refuse s .badArg []
      | some r =>
        match move s r with
        | some s' => succeed s' (gateResults r (s.route r) (s'.route r))
        | none => refuse s .wrongState details
    else refuse s .badLength []
  else refuse s .noLease details

/-- HOLD by gate and assembly state (R89): CLOSING under an open frame, else SHUT with ROUTE_SHUT reason HOLD and no
frame number; CLOSING and SHUT are unchanged; DISABLED refuses. -/
def holdGate (s : State) (r : Fin 64) : Option State :=
  match (s.route r).gate with
  | .opened | .stepping =>
    match (s.route r).assembly with
    | .assembling _ _ => some (s.modifyRoute r fun x => { x with gate := .closing })
    | _ => some (s.shutGate r .hold none)
  | .closing | .shut => some s
  | .disabled => none

/-- HOLD, code 0x28. -/
def execHold (s : State) : Host.Outcome State Fault Refusal := s.serve (· == 0x28) (gateCommand holdGate)

/-- RELEASE opens every gate but a DISABLED one (R90). -/
def releaseGate (s : State) (r : Fin 64) : Option State :=
  match (s.route r).gate with
  | .disabled => none
  | _ => some (s.modifyRoute r fun x => { x with gate := .opened })

/-- RELEASE, code 0x29. -/
def execRelease (s : State) : Host.Outcome State Fault Refusal := s.serve (· == 0x29) (gateCommand releaseGate)

/-- STEP moves a SHUT gate to STEPPING (R91). -/
def stepGate (s : State) (r : Fin 64) : Option State :=
  match (s.route r).gate with
  | .shut => some (s.modifyRoute r fun x => { x with gate := .stepping })
  | _ => none

/-- STEP, code 0x2A. -/
def execStep (s : State) : Host.Outcome State Fault Refusal := s.serve (· == 0x2A) (gateCommand stepGate)

/-! ## Hold points -/

/-- The condition with its value that HOLDPOINT_SET's arguments give after the condition byte: `none` for a wrong
length, `some none` for a value out of range (R96, R181). -/
def readCondition (condition : Byte) (value : List Byte) : Option (Option HoldCondition) :=
  if condition = 0 then
    match value with
    | [lo, hi] => some (some (.frameNumber (read16 lo hi)))
    | _ => none
  else if condition = 1 then
    match value with
    | [code] => some ((readContentCode code.toNat).map .content)
    | _ => none
  else if condition = 2 then
    match value with
    | [] => some (some .damage)
    | _ => none
  else some none

/-- HOLDPOINT_SET (R96): accepted in every gate state; the condition selects the length, and a condition that names
nothing is BAD_ARG whatever the length (R181). -/
def holdpointSet (src : Source) (args : List Byte) (s : State) : Execution :=
  if s.holdsLease src then
    match args with
    | route :: kind :: condition :: value =>
      match readCondition condition value with
      | none => refuse s .badLength []
      | some condition =>
        match readRoute route, readHoldKind kind, condition with
        | some r, some kind, some condition =>
          let h : HoldPoint := { kind, condition, armed := true }
          succeed (s.modifyRoute r fun x => { x with holdPoint := some h })
            (byte r.val :: h.bytes ++ holdPointBytes (s.route r).holdPoint)
        | _, _, _ => refuse s .badArg []
    | _ => refuse s .badLength []
  else refuse s .noLease []

/-- HOLDPOINT_SET, code 0x2B. -/
def execHoldpointSet (s : State) : Host.Outcome State Fault Refusal := s.serve (· == 0x2B) holdpointSet

/-- HOLDPOINT_CLEAR (R97): accepted in every gate state. -/
def holdpointClear (src : Source) (args : List Byte) (s : State) : Execution :=
  if s.holdsLease src then
    match args with
    | [route] =>
      match readRoute route with
      | some r =>
        succeed (s.modifyRoute r fun x => { x with holdPoint := none })
          (byte r.val :: holdPointBytes (s.route r).holdPoint)
      | none => refuse s .badArg []
    | _ => refuse s .badLength []
  else refuse s .noLease []

/-- HOLDPOINT_CLEAR, code 0x2C. -/
def execHoldpointClear (s : State) : Host.Outcome State Fault Refusal := s.serve (· == 0x2C) holdpointClear

end Sys2Proof.Machine
end

