-- ==== Sys2Proof/Machine/NoticeCommands.lean ====
section
/-! DEFINITION. The notice commands (section 9.4): NOTICE_ACK, NOTICE_REPLAY, NOTICE_MASK and NOTICE_ROUTE. -/

namespace Sys2Proof.Machine

/-- The ten mask values in the order of R171. -/
def KindMask.values (mask : KindMask) : List Bool :=
  [mask.portUp, mask.portLost, mask.routeShut, mask.holdFired, mask.frameAborted, mask.frameRefused,
    mask.trunkLocked, mask.trunkDown, mask.trunkStall, mask.leaseLost]

/-- The mask as ten bytes, ENABLED 0 and MASKED 1. -/
def KindMask.bytes (mask : KindMask) : List Byte := mask.values.map flagByte

/-- A mask from ten values in the order of R171. -/
def readMask : List Bool → Option KindMask
  | [portUp, portLost, routeShut, holdFired, frameAborted, frameRefused, trunkLocked, trunkDown, trunkStall,
      leaseLost] =>
    some { portUp, portLost, routeShut, holdFired, frameAborted, frameRefused, trunkLocked, trunkDown, trunkStall,
           leaseLost }
  | _ => none

/-- The queue summary, 22 bytes (section 9.4, section 10.3). -/
def NoticeQueue.summary (q : NoticeQueue) : List Byte :=
  let sequenceOf (n : Option Notice) : List Byte := word16 ((n.map (·.sequence)).getD 0)
  [byte q.held.length, flagByte (!q.held.isEmpty)] ++ sequenceOf q.held.head? ++ sequenceOf q.held.getLast?
    ++ [byte (q.held.countP fun n => !n.sent)] ++ word16 q.nextSequence ++ word16 q.lost
    ++ [q.destination.code] ++ q.mask.bytes

/-- Queue NOTICES_LOST when there is room and the lost count is above 0 (R169). -/
def NoticeQueue.deliverLost (q : NoticeQueue) : NoticeQueue :=
  if q.hasRoom && 0 < q.lost then { q.accept (.noticesLost q.lost) with lost := 0 } else q

/-- The position, from 1, of the held notice with a sequence; 0 when there is none. -/
def NoticeQueue.positionOf (q : NoticeQueue) (sequence : Nat) : Nat :=
  if q.held.any (·.sequence == sequence) then q.held.findIdx (·.sequence == sequence) + 1 else 0

/-- NOTICE_ACK (R173): by position in the held list. -/
def noticeAck (_ : Source) (args : List Byte) (s : State) : Execution :=
  match args with
  | [lo, hi] =>
    match s.notices.positionOf (read16 lo hi) with
    | 0 => refuse s .badArg s.notices.summary
    | removed + 1 =>
      let q := { s.notices with held := s.notices.held.drop (removed + 1) }.deliverLost
      succeed { s with notices := q } (byte (removed + 1) :: q.summary)
  | _ => refuse s .badLength []

/-- NOTICE_ACK, code 0x50. -/
def execNoticeAck (s : State) : Host.Outcome State Fault Refusal := s.serve (· == 0x50) noticeAck

/-- Mark every SENT notice UNSENT (R175). -/
def NoticeQueue.replay (q : NoticeQueue) : NoticeQueue :=
  { q with held := q.held.map fun n => { n with sent := false } }

/-- NOTICE_REPLAY (R175). -/
def noticeReplay (_ : Source) (args : List Byte) (s : State) : Execution :=
  if args.isEmpty then
    let q := s.notices.replay
    succeed { s with notices := q } (byte (s.notices.held.countP (·.sent)) :: q.summary)
  else refuse s .badLength []

/-- NOTICE_REPLAY, code 0x51. -/
def execNoticeReplay (s : State) : Host.Outcome State Fault Refusal := s.serve (· == 0x51) noticeReplay

/-- NOTICE_MASK (R176). -/
def noticeMask (src : Source) (args : List Byte) (s : State) : Execution :=
  if s.holdsLease src then
    if args.length = 10 then
      match (args.mapM readFlag).bind readMask with
      | some mask =>
        let q := { s.notices with mask }
        succeed { s with notices := q } (s.notices.mask.bytes ++ q.summary)
      | none => refuse s .badArg []
    else refuse s .badLength []
  else refuse s .noLease []

/-- NOTICE_MASK, code 0x52. -/
def execNoticeMask (s : State) : Host.Outcome State Fault Refusal := s.serve (· == 0x52) noticeMask

/-- NOTICE_ROUTE (R177). -/
def noticeRoute (src : Source) (args : List Byte) (s : State) : Execution :=
  if s.holdsLease src then
    match args with
    | [destination] =>
      match readSource destination with
      | some destination =>
        let q := { s.notices with destination }
        succeed { s with notices := q } (s.notices.destination.code :: q.summary)
      | none => refuse s .badArg []
    | _ => refuse s .badLength []
  else refuse s .noLease []

/-- NOTICE_ROUTE, code 0x53. -/
def execNoticeRoute (s : State) : Host.Outcome State Fault Refusal := s.serve (· == 0x53) noticeRoute

end Sys2Proof.Machine
end

