-- ==== Sys2Proof/Machine/PortCommands.lean ====
section
/-! DEFINITION. The port commands (section 1.4): PORT_SET and PORT_STATUS. -/

namespace Sys2Proof.Machine

/-- Enable a port (R3): an OFF port goes to SEEKING, another is left as it is. -/
def State.enablePort (s : State) (p : Fin 4) : State :=
  match (s.port p).state with
  | .off => s.modifyPort p fun x => { x with state := .seeking, aligned := false, reception := none }
  | _ => s

/-- Disable a port, in the order of R8; an OFF port is left as it is. -/
def State.disablePort (s : State) (p : Fin 4) : State :=
  match (s.port p).state with
  | .off => s
  | _ =>
    (((s.cutReception p).modifyPort p fun x => { x with aligned := false }).visitRoutes p .portOff).modifyPort p
      fun x => { x with state := .off }

/-- An accepted PORT_SET (R15): an OFF port takes the lane count first; then the enable choice acts. -/
def State.setPortMode (s : State) (p : Fin 4) (enable : Bool) (lanes : Lanes) : State :=
  let s := if (s.port p).state = .off then s.modifyPort p fun x => { x with lanes } else s
  if enable then s.enablePort p else s.disablePort p

/-- PORT_SET (R15). -/
def portSet (src : Source) (args : List Byte) (s : State) : Execution :=
  if s.holdsLease src then
    match args with
    | [port, enable, lanes] =>
      match readPort port, readFlag enable, readLanes lanes with
      | some p, some enable, some lanes =>
        if (s.port p).lanes ≠ lanes ∧ (s.port p).state ≠ .off then refuse s .wrongState []
        else
          let s := s.setPortMode p enable lanes
          succeed s [(s.port p).state.code, byte (s.port p).lanes.count]
      | _, _, _ => refuse s .badArg []
    | _ => refuse s .badLength []
  else refuse s .noLease []

/-- PORT_SET, code 0x10. -/
def execPortSet (s : State) : Host.Outcome State Fault Refusal := s.serve (· == 0x10) portSet

/-- Whether a route is ASSEMBLING. -/
def Route.isAssembling (x : Route) : Bool :=
  match x.assembly with
  | .assembling _ _ => true
  | _ => false

/-- The number of a port's sixteen routes that are ASSEMBLING (R16). -/
def State.openFrames (s : State) (p : Fin 4) : Nat :=
  ((List.finRange 16).filter fun channel => (s.route (routeOf p channel)).isAssembling).length

/-- The reception fields of PORT_STATUS: presence, disposition, channel, content code, header length, bytes received
so far, LONG; what is absent is sent as 0 (R16, R182). -/
def receptionBytes (reception : Option Reception) : List Byte :=
  match reception with
  | none => [0, 0, 0, 0, 0, 0, 0, 0, 0]
  | some x =>
    let header := x.header.getD { channel := 0, code := 0, length := 0 }
    [1, x.disposition.code, byte header.channel.val, byte header.code] ++ word16 header.length
      ++ word16 x.received ++ [flagByte x.long]

/-- PORT_STATUS (R16). -/
def portStatus (_ : Source) (args : List Byte) (s : State) : Execution :=
  match args with
  | [port] =>
    match readPort port with
    | some p =>
      let x := s.port p
      succeed s ([x.state.code, byte x.lanes.count, flagByte x.aligned] ++ receptionBytes x.reception
        ++ [byte (s.openFrames p)])
    | none => refuse s .badArg []
  | _ => refuse s .badLength []

/-- PORT_STATUS, code 0x11. -/
def execPortStatus (s : State) : Host.Outcome State Fault Refusal := s.serve (· == 0x11) portStatus

end Sys2Proof.Machine
end

