-- ==== Sys2Proof/Machine/PoolCommands.lean ====
section
/-! DEFINITION. POOL_STATUS (section 4.7). -/

namespace Sys2Proof.Machine

/-- Descriptors in state ASSEMBLY: the lines in assembly (R72). -/
def Route.linesInAssembly (x : Route) : Nat :=
  match x.assembly with
  | .assembling _ (some _) => 1
  | _ => 0

/-- Descriptors in state RESERVED: one exactly while the route is ASSEMBLING (R39, R74). -/
def Route.reservations (x : Route) : Nat :=
  match x.assembly with
  | .assembling _ _ => 1
  | _ => 0

/-- What POOL_STATUS reports (R84, section 10.3). -/
def State.poolReport (s : State) : List Byte :=
  word16 s.pool.freeSegments ++ (s.routes.toList.flatMap fun x => word16 x.heldSegments)
    ++ word16 s.pool.freeDescriptors
    ++ [byte (s.sumRoutes Route.linesInAssembly), byte (s.sumRoutes Route.reservations)]
    ++ word16 s.queue.length ++ word16 s.pool.segmentLowMark ++ word16 s.pool.descriptorLowMark

/-- Set both low marks to the present free counts (R84). -/
def State.setMarks (s : State) : State :=
  { s with pool := { s.pool with
      segmentLowMark := s.pool.freeSegments, descriptorLowMark := s.pool.freeDescriptors } }

/-- POOL_STATUS (R84): the length, the choice, and for SET_MARKS the lease. -/
def poolStatus (src : Source) (args : List Byte) (s : State) : Execution :=
  match args with
  | [choice] =>
    match readFlag choice with
    | none => refuse s .badArg []
    | some false => succeed s s.poolReport
    | some true => if s.holdsLease src then succeed s.setMarks s.poolReport else refuse s .noLease []
  | _ => refuse s .badLength []

/-- POOL_STATUS, code 0x30. -/
def execPoolStatus (s : State) : Host.Outcome State Fault Refusal := s.serve (· == 0x30) poolStatus

end Sys2Proof.Machine
end

