-- ==== Sys2Proof/Machine/Reset.lean ====
section
/-! DEFINITION. Power and the reset pin (section 8.8): POWER_ON, RESET_N_ASSERTED and RESET_N_RELEASED. -/

namespace Sys2Proof.Machine

/-- POWER_ON (R163): a part reset of cause POWER_ON with epoch 1, or, with RESET_N low, the part is held and takes
that reset at the release. -/
def execPowerOn (straps : Straps) (resetLow : Bool) (s : State) : Host.Outcome State Fault Refusal :=
  if resetLow then .next (s.holdInReset .lowSincePowerOn)
  else .next (s.partReset .powerOn 1 straps).finish

/-- RESET_N_ASSERTED (R163): the part is held, and what is not cut keeps its value until the reset (DEDUCED, log
entry 15). A pin that is already low does not go low again. -/
def execResetNAsserted (s : State) : Host.Outcome State Fault Refusal :=
  .next (if s.resetLine == .high then s.holdInReset .low else s)

/-- RESET_N_RELEASED (R163): one reset is taken, of cause PIN with the next epoch, or of cause POWER_ON with epoch 1
when power-on ended with the pin low. A pin that is high is not released. -/
def execResetNReleased (straps : Straps) (s : State) : Host.Outcome State Fault Refusal :=
  match s.resetLine with
  | .high => .next s
  | .low => .next (s.partReset .pin s.nextEpoch straps).finish
  | .lowSincePowerOn => .next (s.partReset .powerOn 1 straps).finish

end Sys2Proof.Machine
end

