-- ==== Sys2Proof/WellFormed.lean ====
section
/-! DEFINITION. Which commands are well formed. Ports and routes are bounded by their types; two checks are left.
An ill-formed command stands for no event of the part, and its meaning changes nothing. -/

namespace Sys2Proof

/-- The three reverse trunk kinds that have a row of their own (R185, section 10.6). -/
def knownReverseKind (kind : Byte) : Bool :=
  kind == 0x30#8 || kind == 0x31#8 || kind == 0x32#8

/-- A command is well formed when an UNKNOWN_REVERSE_RECORD has no known kind (R185), and a BYTES_RECEIVED
brings at least one byte. -/
def Instr.wellFormed : Instr → Bool
  | .unknownReverseRecord (kind :: _) => !knownReverseKind kind
  | .bytesReceived _ bytes => !bytes.isEmpty
  | _ => true

end Sys2Proof
end

