-- ==== Sys2Proof/Machine/Trunk.lean ====
section
/-! DEFINITION. The events of the trunk (chapters 6 and 7): the reverse records CREDIT_GRANT, REMOTE_COMMAND_RECORD,
ACKNOWLEDGEMENT and UNKNOWN_REVERSE_RECORD; REVERSE_ALIGNMENT and SIGNAL_LOSS; the train, retry and stall
expiries; and TRANSMISSION_COMPLETION. -/

namespace Sys2Proof.Machine

/-! ## Reverse records (R129, R135, R185) -/

/-- Reverse records are taken in TRAINING and LOCKED; in HALTED and DOWN nothing is received (R129, R135). -/
def State.receivesReverse (s : State) : Bool :=
  s.link.state == .training || s.link.state == .locked

/-- A reverse record is discarded and RX_DISCARDED moves (R130, R135, R185). -/
def State.discardReverse (s : State) : State :=
  s.countTrunk fun c => { c with rxDiscarded := bump c.rxDiscarded }

/-- A good grant of `count` credits (R118, R121): GRANTS moves, the balance rises to at most 1,023, and a stall ends. -/
def State.grant (s : State) (count : Nat) : State :=
  let sum := s.sender.credits + count
  let s := s.endStall.countTrunk fun c =>
    { c with
      grants := bump c.grants
      creditClamped := if Config.maxCredits < sum then bump c.creditClamped else c.creditClamped }
  { s with sender := { s.sender with credits := min sum Config.maxCredits } }

/-- The count of a grant record of the right size whose check matches and whose count is not 0 (R118, R185). -/
def readGrant (rest : List Byte) : Option Nat :=
  match rest with
  | [count, lo, hi] =>
    if checkBytes (recordCheck [0x30, count]) = [lo, hi] ∧ count ≠ 0 then some count.toNat else none
  | _ => none

/-- A credit grant by link state (R118, R135). -/
def State.takeGrant (s : State) (rest : List Byte) : State :=
  if s.link.state = .locked then
    match readGrant rest with
    | some count => s.grant count
    | none => s.countTrunk fun c => { c with grantErrors := bump c.grantErrors }
  else s.discardReverse

/-- CREDIT_GRANT (R118). -/
def execCreditGrant (rest : List Byte) (s : State) : Host.Outcome State Fault Refusal :=
  event s s.receivesReverse (s.takeGrant rest)

/-- A remote command record in LOCKED, in the order of R149: its length, its check, then its body. The body received
is the record less the kind, the length byte and the two check bytes (R185). -/
def State.takeRemote (s : State) (rest : List Byte) : State :=
  let framing := s.countSource .remoteSource fun c => { c with framing := bump c.framing }
  match rest with
  | length :: after =>
    if 3 ≤ length.toNat ∧ length.toNat ≤ 240 ∧ after.length = length.toNat + 2 then
      s.judgeRecord .remoteSource (length :: after.take length.toNat) (after.drop length.toNat)
    else framing
  | [] => framing

/-- REMOTE_COMMAND_RECORD (R135, R149). -/
def execRemoteCommandRecord (rest : List Byte) (s : State) : Host.Outcome State Fault Refusal :=
  event s s.receivesReverse (if s.link.state = .locked then s.takeRemote rest else s.discardReverse)

/-- The lock, in the order of R131; the sender's choice belongs to the end of the event. -/
def State.lock (s : State) : State :=
  ({ s with link := { s.link with state := .locked, trainTimer := .stopped } }.countTrunk fun c =>
    { c with locks := bump c.locks }).raise (.trunkLocked s.link.epoch)

/-- The epoch of an acknowledgement of the right size whose check matches (R130, R185). -/
def readAcknowledgement (rest : List Byte) : Option Nat :=
  match rest with
  | [e0, e1, lo, hi] =>
    if checkBytes (recordCheck [0x32, e0, e1]) = [lo, hi] then some (read16 e0 e1) else none
  | _ => none

/-- An acknowledgement (R130, R135): in TRAINING one that carries the part's epoch locks the link while reverse
aligned is yes, and one that fails its check or carries another epoch is discarded; in LOCKED it is discarded. A
good one of the part's epoch without alignment cannot complete the handshake and changes nothing (DEDUCED, log
entry 11). -/
def State.acknowledge (s : State) (rest : List Byte) : State :=
  if s.link.state = .training then
    if readAcknowledgement rest = some s.link.epoch then
      if s.link.reverseAligned then s.lock else s
    else s.discardReverse
  else s.discardReverse

/-- ACKNOWLEDGEMENT (R130). -/
def execAcknowledgement (rest : List Byte) (s : State) : Host.Outcome State Fault Refusal :=
  event s s.receivesReverse (s.acknowledge rest)

/-- Whether a reverse record holds no known kind (R185). -/
def unknownReverse (record : List Byte) : Bool :=
  match record with
  | kind :: _ => !knownReverseKind kind
  | [] => true

/-- UNKNOWN_REVERSE_RECORD (R135, R185). -/
def execUnknownReverseRecord (record : List Byte) (s : State) : Host.Outcome State Fault Refusal :=
  event s (s.receivesReverse && unknownReverse record) s.discardReverse

/-! ## Link events -/

/-- REVERSE_ALIGNMENT (R130 step 2): in TRAINING; from here on the part sends announcements. -/
def execReverseAlignment (s : State) : Host.Outcome State Fault Refusal :=
  event s (s.link.state == .training) { s with link := { s.link with reverseAligned := true } }

/-- Signal loss in LOCKED, in the order of R134. -/
def State.loseSignal (s : State) : State :=
  (s.dropLock.enterDown.countTrunk fun c => { c with signalLosses := bump c.signalLosses }).raise .trunkDown

/-- SIGNAL_LOSS (R130, R134): in TRAINING reverse aligned becomes no and the train timer runs on; in HALTED and DOWN
no signal loss is reported. -/
def execSignalLoss (s : State) : Host.Outcome State Fault Refusal :=
  event s s.receivesReverse
    (if s.link.state = .locked then s.loseSignal
     else { s with link := { s.link with reverseAligned := false } })

/-- TRAIN_TIMER_EXPIRY (R132): the train timer runs; DOWN, and TRAIN_FAILS moves. -/
def execTrainTimerExpiry (s : State) : Host.Outcome State Fault Refusal :=
  event s s.link.trainTimer.isRunning
    (s.enterDown.countTrunk fun c => { c with trainFails := bump c.trainFails })

/-- RETRY_TIMER_EXPIRY (R133): the retry timer runs; TRAINING begins. -/
def execRetryTimerExpiry (s : State) : Host.Outcome State Fault Refusal :=
  event s s.link.retryTimer.isRunning s.enterTraining

/-! ## Completions and stalls -/

/-- The head record has been sent: it leaves the queue, its descriptor returns, and its segments return to the pool
from the route the descriptor names (R80, R114). -/
def State.recordSent (s : State) : State :=
  match s.queue with
  | record :: rest =>
    (({ s with queue := rest }.returnDescriptor).returnSegments record.route record.segments).countTrunk fun c =>
      { c with recordsSent := bump c.recordsSent }
  | [] => s

/-- A transmission on the trunk completes (R114): a stream record is sent; a reply leaves the remote output slot, and a
pending reset of the remote source is taken (R162); a notice is marked sent if it is still held. -/
def State.completeTrunk (s : State) (straps : Straps) : State :=
  let free := { s with sender := { s.sender with inFlight := .nothing, wire := [] } }
  match s.sender.inFlight with
  | .nothing => s
  | .stream => free.recordSent
  | .reply =>
    ((free.modifySource .remoteSource fun x => { x with slot := none }).countTrunk fun c =>
      { c with repliesSent := bump c.repliesSent }).resetAfterReply .remoteSource straps
  | .notice sequence =>
    { free with notices := free.notices.markSent sequence }.countTrunk fun c =>
      { c with noticesSent := bump c.noticesSent }

/-- TRANSMISSION_COMPLETION (R114): something is in flight. -/
def execTransmissionCompletion (straps : Straps) (s : State) : Host.Outcome State Fault Refusal :=
  event s (s.sender.inFlight != .nothing) (s.completeTrunk straps)

/-- The stall timer runs out (R120): stalled becomes yes, STALLS moves, TRUNK_STALL is raised. -/
def State.expireStall (s : State) : State :=
  ({ s with sender := { s.sender with stalled := true, stallTimer := .stopped } }.countTrunk fun c =>
    { c with stalls := bump c.stalls }).raise .trunkStall

/-- STALL_EXPIRY (R120): the stall timer runs. -/
def execStallExpiry (s : State) : Host.Outcome State Fault Refusal :=
  event s s.sender.stallTimer.isRunning s.expireStall

end Sys2Proof.Machine
end

