-- ==== Sys2Proof/Machine/TrunkCommands.lean ====
section
/-! DEFINITION. The link commands (section 7.5): TRUNK_STATUS, TRUNK_HALT, TRUNK_START and TRUNK_RETRAIN. -/

namespace Sys2Proof.Machine

/-- What TRUNK_STATUS reports (R140, section 10.3). -/
def State.trunkReport (s : State) : List Byte :=
  [s.link.state.code] ++ word16 s.link.epoch ++ [flagByte s.link.autoTrain, flagByte s.link.reverseAligned]
    ++ word16 s.sender.credits ++ word16 s.queue.length ++ [s.sender.inFlight.code]
    ++ word16 s.sender.inFlight.sequence
    ++ [flagByte s.sender.headInterrupted, flagByte s.sourceRemote.slot.isSome, flagByte s.sender.stalled]

/-- TRUNK_STATUS (R140). -/
def trunkStatus (_ : Source) (args : List Byte) (s : State) : Execution :=
  if args.isEmpty then succeed s s.trunkReport else refuse s .badLength []

/-- TRUNK_STATUS, code 0x40. -/
def execTrunkStatus (s : State) : Host.Outcome State Fault Refusal := s.serve (· == 0x40) trunkStatus

/-- Take the link out of service (R119, R136): the lock is dropped, HALTED, and HALTS moves unless it was HALTED. -/
def State.haltLink (s : State) : State :=
  let before := s.link.state
  let s := s.dropLock.enterHalted
  if before = .halted then s else s.countTrunk fun c => { c with halts := bump c.halts }

/-- TRUNK_HALT (R136). -/
def trunkHalt (src : Source) (args : List Byte) (s : State) : Execution :=
  if s.holdsLease src then
    if args.isEmpty then succeed s.haltLink [s.link.state.code, LinkState.halted.code]
    else refuse s .badLength []
  else refuse s .noLease []

/-- TRUNK_HALT, code 0x41. -/
def execTrunkHalt (s : State) : Host.Outcome State Fault Refusal := s.serve (· == 0x41) trunkHalt

/-- TRUNK_START (R137). -/
def trunkStart (src : Source) (args : List Byte) (s : State) : Execution :=
  if s.holdsLease src then
    if args.isEmpty then
      if s.link.state = .halted then succeed s.enterTraining [LinkState.training.code]
      else refuse s .wrongState [s.link.state.code]
    else refuse s .badLength []
  else refuse s .noLease []

/-- TRUNK_START, code 0x42. -/
def execTrunkStart (s : State) : Host.Outcome State Fault Refusal := s.serve (· == 0x42) trunkStart

/-- Send a LOCKED or DOWN link through training again (R138). -/
def State.retrainLink (s : State) : State :=
  s.dropLock.enterTraining.countTrunk fun c => { c with retrains := bump c.retrains }

/-- TRUNK_RETRAIN (R138). -/
def trunkRetrain (src : Source) (args : List Byte) (s : State) : Execution :=
  if s.holdsLease src then
    if args.isEmpty then
      match s.link.state with
      | .locked | .down => succeed s.retrainLink [s.link.state.code, LinkState.training.code]
      | .training | .halted => refuse s .wrongState [s.link.state.code]
    else refuse s .badLength []
  else refuse s .noLease []

/-- TRUNK_RETRAIN, code 0x43. -/
def execTrunkRetrain (s : State) : Host.Outcome State Fault Refusal := s.serve (· == 0x43) trunkRetrain

end Sys2Proof.Machine
end

