-- ==== Sys2Proof/Machine/Dispatch.lean ====
section
/-! DEFINITION. One arm per row of spec/opcode_table.json, in the table's order. -/

namespace Sys2Proof.Machine

def exec (i : Instr) (s : State) : Host.Outcome State Fault Refusal :=
  match i with
  | .alignmentAchieved port => Sys2Proof.Machine.execAlignmentAchieved port s
  | .alignmentLost port => Sys2Proof.Machine.execAlignmentLost port s
  | .headerEvent port header => Sys2Proof.Machine.execHeaderEvent port header s
  | .endEvent port => Sys2Proof.Machine.execEndEvent port s
  | .frameIdleExpiry route => Sys2Proof.Machine.execFrameIdleExpiry route s
  | .characterReceived character stopBit => Sys2Proof.Machine.execCharacterReceived character stopBit s
  | .gapAbort => Sys2Proof.Machine.execGapAbort s
  | .controlPortCompletion straps => Sys2Proof.Machine.execControlPortCompletion straps s
  | .unknownCommand => Sys2Proof.Machine.execUnknownCommand s
  | .identify => Sys2Proof.Machine.execIdentify s
  | .claim => Sys2Proof.Machine.execClaim s
  | .drop => Sys2Proof.Machine.execDrop s
  | .leaseTime => Sys2Proof.Machine.execLeaseTime s
  | .resetPart => Sys2Proof.Machine.execResetPart s
  | .portSet => Sys2Proof.Machine.execPortSet s
  | .portStatus => Sys2Proof.Machine.execPortStatus s
  | .routeRead => Sys2Proof.Machine.execRouteRead s
  | .routeWrite => Sys2Proof.Machine.execRouteWrite s
  | .routeEnable => Sys2Proof.Machine.execRouteEnable s
  | .routeDisable => Sys2Proof.Machine.execRouteDisable s
  | .tableScan => Sys2Proof.Machine.execTableScan s
  | .hold => Sys2Proof.Machine.execHold s
  | .release => Sys2Proof.Machine.execRelease s
  | .step => Sys2Proof.Machine.execStep s
  | .holdpointSet => Sys2Proof.Machine.execHoldpointSet s
  | .holdpointClear => Sys2Proof.Machine.execHoldpointClear s
  | .poolStatus => Sys2Proof.Machine.execPoolStatus s
  | .trunkStatus => Sys2Proof.Machine.execTrunkStatus s
  | .trunkHalt => Sys2Proof.Machine.execTrunkHalt s
  | .trunkStart => Sys2Proof.Machine.execTrunkStart s
  | .trunkRetrain => Sys2Proof.Machine.execTrunkRetrain s
  | .noticeAck => Sys2Proof.Machine.execNoticeAck s
  | .noticeReplay => Sys2Proof.Machine.execNoticeReplay s
  | .noticeMask => Sys2Proof.Machine.execNoticeMask s
  | .noticeRoute => Sys2Proof.Machine.execNoticeRoute s
  | .countersRead => Sys2Proof.Machine.execCountersRead s
  | .creditGrant rest => Sys2Proof.Machine.execCreditGrant rest s
  | .remoteCommandRecord rest => Sys2Proof.Machine.execRemoteCommandRecord rest s
  | .acknowledgement rest => Sys2Proof.Machine.execAcknowledgement rest s
  | .unknownReverseRecord record => Sys2Proof.Machine.execUnknownReverseRecord record s
  | .reverseAlignment => Sys2Proof.Machine.execReverseAlignment s
  | .signalLoss => Sys2Proof.Machine.execSignalLoss s
  | .trainTimerExpiry => Sys2Proof.Machine.execTrainTimerExpiry s
  | .retryTimerExpiry => Sys2Proof.Machine.execRetryTimerExpiry s
  | .transmissionCompletion straps => Sys2Proof.Machine.execTransmissionCompletion straps s
  | .stallExpiry => Sys2Proof.Machine.execStallExpiry s
  | .leaseExpiry => Sys2Proof.Machine.execLeaseExpiry s
  | .graceExpiry straps => Sys2Proof.Machine.execGraceExpiry straps s
  | .powerOn straps resetLow => Sys2Proof.Machine.execPowerOn straps resetLow s
  | .resetNAsserted => Sys2Proof.Machine.execResetNAsserted s
  | .resetNReleased straps => Sys2Proof.Machine.execResetNReleased straps s
  | .bytesReceived port bytes => Sys2Proof.Machine.execBytesReceived port bytes s

end Sys2Proof.Machine
end

