-- ==== Sys2Proof/Safety.lean ====
section
/-! DEFINITION. The laws of the part as predicates on a state (conservation, the route table's laws, frame integrity,
the notice queue, the link and the sender, the lease, the two receivers), and the vocabulary of the statements: what
an event leaves as it was, and what a served command record is. -/

namespace Sys2Proof.Machine

/-! ## Conservation (chapter 4) -/

/-- Segments of the route's line in assembly, 0 when it has none. -/
def Route.lineSegments (x : Route) : Nat :=
  match x.assembly with
  | .assembling _ (some line) => line.segments
  | _ => 0

/-- Segments of the queued records that name a route (R72). -/
def State.queuedSegments (s : State) (r : Fin 64) : Nat :=
  ((s.queue.filter fun record => record.route == r).map fun record => record.segments).sum

/-- R68: free segments plus the held segments of all routes are 2,048, and a route holds the segments of its
descriptors in ASSEMBLY and QUEUED. -/
def State.SegmentsConserved (s : State) : Prop :=
  s.pool.freeSegments + s.sumRoutes (fun x => x.heldSegments) = 2048 ∧
  ∀ r, (s.route r).heldSegments = (s.route r).lineSegments + s.queuedSegments r

/-- R73 with R74: free descriptors, lines in assembly, queued records and one reservation for each ASSEMBLING route
are 1,024. -/
def State.DescriptorsConserved (s : State) : Prop :=
  s.pool.freeDescriptors + s.sumRoutes Route.linesInAssembly + s.queue.length + s.sumRoutes Route.reservations
    = 1024

/-! ## The route table (chapters 2, 3 and 5) -/

/-- R19: each configuration field is among its values. -/
def RouteConfig.InRange (config : RouteConfig) : Prop :=
  config.trunkChannel < 64 ∧ config.filter.length ≤ 4 ∧ config.filter.Nodup ∧
  (∀ code ∈ config.filter, 0x08 ≤ code ∧ code ≤ 0x3F) ∧
  (∀ code ∈ config.overrideCode, 0x10 ≤ code ∧ code ≤ 0x3F) ∧
  16 ≤ config.cap ∧ config.cap ≤ 2048 ∧ config.floor ≤ config.cap ∧
  1 ≤ config.idleLimit ∧ config.idleLimit ≤ 1000

/-- R25: a SEALED route has an empty filter list, override NONE and its own number as trunk channel. -/
def RouteConfig.KeepsSealedRule (config : RouteConfig) (r : Fin 64) : Prop :=
  config.mode = .sealed → config.filter = [] ∧ config.overrideCode = none ∧ config.trunkChannel = r.val

/-- R19, R25 and R70 for one entry: values in range, the sealed rule, held segments within the cap. -/
def Route.Configured (x : Route) (r : Fin 64) : Prop :=
  x.config.InRange ∧ x.config.KeepsSealedRule r ∧ x.heldSegments ≤ x.config.cap

/-- R19, R25 and R70 for the table. -/
def State.Configured (s : State) : Prop := ∀ r, (s.route r).Configured r

/-- R26: no two routes whose gate is not DISABLED have the same trunk channel. -/
def State.ClashFree (s : State) : Prop :=
  ∀ r k, r ≠ k → (s.route r).gate ≠ .disabled → (s.route k).gate ≠ .disabled →
    (s.route r).config.trunkChannel ≠ (s.route k).config.trunkChannel

/-- R87 for one entry. -/
def Route.GateLaw (x : Route) : Prop :=
  (x.gate = .closing → x.isAssembling = true) ∧ (x.gate = .shut → x.isAssembling = false) ∧
  (x.gate = .disabled → x.assembly = .idle)

/-- R10 with R14: the route of a packet in reception with disposition TO_ROUTE is in service. -/
def State.RoutedInService (s : State) : Prop :=
  ∀ p x header, (s.port p).reception = some x → x.disposition = .toRoute → x.header = some header →
    (s.route (routeOf p header.channel)).gate ≠ .disabled

/-- R87 for the table, with the fact about packets in reception that keeps it. -/
def State.GateLaw (s : State) : Prop := (∀ r, (s.route r).GateLaw) ∧ s.RoutedInService

/-- R41: the frame idle timer does not run while the route is IDLE. -/
def Route.TimerLaw (x : Route) : Prop := x.assembly = .idle → x.idleTimer = .stopped

/-- Lines of the frame that are in assembly: 1 when the line in assembly is a line packet's, else 0. -/
def lineInHand (line : Option LineInAssembly) : Nat :=
  match line with
  | some l => if isLineCode l.code then 1 else 0
  | none => 0

/-- R21 and R51 for one entry: an open frame's declarations are in range, lines received never exceed the declared
lines, and every line forwarded or in assembly has been received. -/
def Route.FrameCounts (x : Route) : Prop :=
  ∀ frame line, x.assembly = .assembling frame line →
    1 ≤ frame.declaredLines ∧ frame.declaredLines ≤ 4095 ∧ 1 ≤ frame.declaredBytes ∧ frame.declaredBytes ≤ 8192 ∧
    frame.received ≤ frame.declaredLines ∧ frame.forwarded + lineInHand line ≤ frame.received

/-! ## Frame integrity on the trunk (R108) -/

/-- A frame open on a trunk channel as the receiver sees it: its number, the lines forwarded so far, and whether its
closing mark will carry a seal (R184). -/
structure TrunkFrame where
  number : Nat
  forwarded : Nat
  hasSeal : Bool
  deriving DecidableEq, Repr

/-- What one record does to a trunk channel on which the frame `f` is open, or none is; `none` when the record breaks
the order of R108 or the line indices of R58. -/
def RecordBody.follow (body : RecordBody) (f : Option TrunkFrame) : Option (Option TrunkFrame) :=
  match body, f with
  | .opening mode number _ _, none => some (some { number, forwarded := 0, hasSeal := mode == .sealed })
  | .line _ _ _ index _, some f =>
    if index = f.forwarded + 1 then some (some { f with forwarded := index }) else none
  | .side _ _ _, some f => some (some f)
  | .closing _ _ _ _ number forwarded sealValue, some f =>
    if number = f.number ∧ forwarded = f.forwarded ∧ sealValue.isSome = f.hasSeal then some none else none
  | .abort _ number forwarded, some f =>
    if number = f.number ∧ forwarded = f.forwarded then some none else none
  | _, _ => none

/-- What a list of records does to a trunk channel, record by record. -/
def followAll (records : List StreamRecord) (f : Option TrunkFrame) : Option (Option TrunkFrame) :=
  records.foldlM (fun f record => record.body.follow f) f

/-- The queued records of a trunk channel, oldest first. -/
def State.channelRecords (s : State) (channel : Nat) : List StreamRecord :=
  s.queue.filter fun record => record.trunkChannel == channel

/-- The open frame of a route as the receiver will see it once the queue is sent. -/
def Route.trunkFrame (x : Route) : Option TrunkFrame :=
  match x.assembly with
  | .assembling frame _ =>
    some { number := frame.number, forwarded := frame.forwarded, hasSeal := frame.sealValue.isSome }
  | _ => none

/-- R108 for one trunk channel: from some standing of the channel before the head, the queued records of the channel
are whole frames in order, and they end with the open frame of the ASSEMBLING route on that channel, or with no
frame open when no ASSEMBLING route is on it. -/
def State.ChannelIntegrity (s : State) (channel : Nat) : Prop :=
  ∃ before after, followAll (s.channelRecords channel) before = some after ∧
    (∀ r, (s.route r).config.trunkChannel = channel → (s.route r).isAssembling = true →
      after = (s.route r).trunkFrame) ∧
    ((∀ r, (s.route r).config.trunkChannel = channel → (s.route r).isAssembling = false) → after = none)

/-- R108 for the queue, with the laws of the table that carry it (R26, R87). -/
def State.FrameIntegrity (s : State) : Prop :=
  s.GateLaw ∧ s.ClashFree ∧ ∀ channel, s.ChannelIntegrity channel

/-! ## Ingress ports (chapter 1) -/

/-- R1, R2, R4 and R7 for one port: an OFF port is not aligned; a port that is not aligned has no packet in
reception; outside ACTIVE only a packet whose header failed is in reception; the header fields are absent exactly
for HEADER_ERROR. -/
def Port.Law (x : Port) : Prop :=
  (x.state = .off → x.aligned = false) ∧ (x.aligned = false → x.reception = none) ∧
  ∀ y, x.reception = some y →
    (x.state ≠ .active → y.disposition = .headerError) ∧ (y.header = none ↔ y.disposition = .headerError)

/-! ## Notices (R166, R167) -/

/-- R167: at most 16 notices, their sequences strictly increasing and never 0, all below the next sequence unless it
has just come round to 1; next sequence and lost count within their ranges (R166). -/
def NoticeQueue.Law (q : NoticeQueue) : Prop :=
  q.held.length ≤ 16 ∧ (q.held.map fun n => n.sequence).Pairwise (· < ·) ∧
  (∀ n ∈ q.held, 1 ≤ n.sequence ∧ n.sequence ≤ 65535) ∧
  (q.nextSequence ≠ 1 → ∀ n ∈ q.held, n.sequence < q.nextSequence) ∧
  1 ≤ q.nextSequence ∧ q.nextSequence ≤ 65535 ∧ q.lost ≤ 65535

/-! ## Notices offered to a path (R172) -/

/-- A notice is eligible: UNSENT and not in transmission on either path. -/
def State.Eligible (s : State) (n : Notice) : Prop :=
  n.sent = false ∧ s.sender.inFlight ≠ .notice n.sequence ∧ s.transmitter.sending ≠ .notice n.sequence

/-- The oldest eligible notice. -/
def State.Offers (s : State) (n : Notice) : Prop :=
  ∃ older newer, s.notices.held = older ++ n :: newer ∧ s.Eligible n ∧ ∀ m ∈ older, ¬ s.Eligible m

/-- No held notice is eligible. -/
def State.OffersNone (s : State) : Prop := ∀ m ∈ s.notices.held, ¬ s.Eligible m

/-! ## Link and sender (chapters 6 and 7) -/

/-- R126 to R130 for the link: the train timer runs in TRAINING alone, the retry timer in DOWN alone, the epoch is
1 to 65,535, alignment is seen only in TRAINING and LOCKED and is there while LOCKED. -/
def Link.Law (link : Link) : Prop :=
  (link.trainTimer.isRunning = true ↔ link.state = .training) ∧
  (link.retryTimer.isRunning = true ↔ link.state = .down) ∧
  1 ≤ link.epoch ∧ link.epoch ≤ 65535 ∧
  (link.reverseAligned = true → link.state = .training ∨ link.state = .locked) ∧
  (link.state = .locked → link.reverseAligned = true)

/-- R110, R119, R121 and R140 for the sender: the balance is at most 1,023; outside LOCKED it is 0, nothing is in
flight and no stall is timed or reported; what is in flight is there to be sent; a head that is being sent again is
no longer marked interrupted, and only a record can be. -/
def State.SenderLaw (s : State) : Prop :=
  s.sender.credits ≤ 1023 ∧
  (s.link.state ≠ .locked → s.sender.credits = 0 ∧ s.sender.inFlight = .nothing ∧ s.sender.stalled = false ∧
    s.sender.stallTimer = .stopped) ∧
  (s.sender.inFlight = .stream → s.queue ≠ [] ∧ s.sender.headInterrupted = false) ∧
  (s.sender.inFlight = .reply → s.sourceRemote.slot.isSome = true) ∧
  (s.sender.headInterrupted = true → s.queue ≠ [])

/-- R110, R119, R126 and R140 together. -/
def State.LinkLaw (s : State) : Prop := s.link.Law ∧ s.SenderLaw

/-- The three conditions of a stall (R120). -/
def State.Stalling (s : State) : Prop := s.queue ≠ [] ∧ s.link.state = .locked ∧ s.sender.credits = 0

/-- R120 and R121: under the stall condition a stall is either timed or reported, never both; without it neither. -/
def State.StallLaw (s : State) : Prop :=
  (s.Stalling → (s.sender.stallTimer.isRunning = true ↔ s.sender.stalled = false)) ∧
  (¬ s.Stalling → s.sender.stallTimer = .stopped ∧ s.sender.stalled = false)

/-- R111, R112, R156 and R172: after every event, a path that is free has nothing it could send. The control port
is free when it transmits nothing, the sender when nothing is in flight and the link is LOCKED. A part held by
RESET_N drives neither path (R163). -/
def State.NothingWaits (s : State) : Prop :=
  s.resetLine = .high →
    (s.transmitter.sending = .nothing →
      s.sourceLocal.slot = none ∧ (s.notices.destination = .localSource → s.OffersNone)) ∧
    (s.link.state = .locked → s.sender.inFlight = .nothing →
      s.sourceRemote.slot = none ∧ (s.notices.destination = .remoteSource → s.OffersNone) ∧
      (s.queue = [] ∨ s.sender.credits = 0))

/-! ## Control port and executor (chapter 8) -/

/-- R157: the lease timer runs for the lease time while there is a holder and is stopped while there is none; the
lease time is in its range. -/
def Lease.Law (lease : Lease) : Prop :=
  100 ≤ lease.time ∧ lease.time ≤ 60000 ∧
  (lease.holder = none → lease.timer = .stopped) ∧
  (lease.holder ≠ none → lease.timer = .running lease.time)

/-- R144 to R148: the gap timer runs exactly in IN_RECORD, and there the record so far agrees with the position and
the length character. -/
def Receiver.Law (x : Receiver) : Prop :=
  (x.gapTimer.isRunning = true ↔ x.state = .inRecord) ∧
  (x.state = .inRecord →
    match x.position with
    | .length => x.record = []
    | .body => ∃ n, x.length = some n ∧ 3 ≤ n ∧ n ≤ 240 ∧ 1 ≤ x.record.length ∧ x.record.length ≤ n
    | .check => ∃ n, x.length = some n ∧ 3 ≤ n ∧ n ≤ 240 ∧ n + 1 ≤ x.record.length ∧ x.record.length ≤ n + 2)

/-! ## What an event leaves as it was -/

/-- The parts of the state. -/
inductive Piece where
  | ports | routes | pool | queue | sender | link | trunkCounters | receiver | transmitter | rate
  | sourceLocal | sourceRemote | arbiter | resetPending | lease | resetCause | notices | resetLine | pending
  deriving DecidableEq, Repr

/-- Two states agree on a part. -/
def State.Agree (s t : State) : Piece → Prop
  | .ports => t.ports = s.ports
  | .routes => t.routes = s.routes
  | .pool => t.pool = s.pool
  | .queue => t.queue = s.queue
  | .sender => t.sender = s.sender
  | .link => t.link = s.link
  | .trunkCounters => t.trunkCounters = s.trunkCounters
  | .receiver => t.receiver = s.receiver
  | .transmitter => t.transmitter = s.transmitter
  | .rate => t.rate = s.rate
  | .sourceLocal => t.sourceLocal = s.sourceLocal
  | .sourceRemote => t.sourceRemote = s.sourceRemote
  | .arbiter => t.arbiter = s.arbiter
  | .resetPending => t.resetPending = s.resetPending
  | .lease => t.lease = s.lease
  | .resetCause => t.resetCause = s.resetCause
  | .notices => t.notices = s.notices
  | .resetLine => t.resetLine = s.resetLine
  | .pending => t.pending = s.pending

/-- The frame of an event: `t` agrees with `s` on every part but those listed. -/
def SameBut (s t : State) (changed : List Piece) : Prop := ∀ piece, piece ∉ changed → s.Agree t piece

/-- The part of a source's state. -/
def Source.piece : Source → Piece
  | .localSource => .sourceLocal
  | .remoteSource => .sourceRemote

/-- Every route but one is unchanged. -/
def OnlyRoute (s t : State) (r : Fin 64) : Prop := ∀ k, k ≠ r → t.route k = s.route k

/-- Every port but one is unchanged. -/
def OnlyPort (s t : State) (p : Fin 4) : Prop := ∀ k, k ≠ p → t.port k = s.port k

/-! ## Ends of frames (sections 3.6 and 5.3) -/

/-- The gate after an admitted frame ended with this reason (R63, R92): HOLD makes SHUT of every gate in service,
DISABLED takes no step, every other reason makes SHUT of CLOSING and STEPPING. -/
def Gate.afterAbort (gate : Gate) (reason : AbortReason) : Gate :=
  match reason, gate with
  | .disabled, _ => gate
  | .hold, .opened => .shut
  | _, .closing => .shut
  | _, .stepping => .shut
  | _, _ => gate

/-- The gate after a frame closed (R60, R92). -/
def Gate.afterClose (gate : Gate) : Gate :=
  match gate with
  | .closing => .shut
  | .stepping => .shut
  | _ => gate

/-- The ROUTE_SHUT that the end of a frame raises, if its gate moves (R92, R93). -/
def closeNotices (r : Fin 64) (gate : Gate) (number : Nat) : List NoticeInfo :=
  match gate with
  | .closing => [.routeShut r .hold (some number)]
  | .stepping => [.routeShut r .step (some number)]
  | _ => []

/-- The notices of an abort in their order: FRAME_ABORTED, then ROUTE_SHUT if the gate moves (R62, R63, R93). -/
def abortNotices (r : Fin 64) (gate : Gate) (reason : AbortReason) (number : Nat) : List NoticeInfo :=
  .frameAborted r number reason ::
    match reason with
    | .disabled => []
    | .hold => if gate = .opened ∨ gate = .closing ∨ gate = .stepping then [.routeShut r .tag (some number)] else []
    | _ => closeNotices r gate number

/-- Raise notices in order (R168). -/
def NoticeQueue.raiseAll (q : NoticeQueue) (infos : List NoticeInfo) : NoticeQueue := infos.foldl NoticeQueue.raise q

/-- The abort mark record of a frame (R62 step 2). -/
def abortRecord (r : Fin 64) (x : Route) (frame : OpenFrame) (reason : AbortReason) : StreamRecord :=
  { route := r, trunkChannel := x.config.trunkChannel, segments := 0,
    body := .abort reason frame.number frame.forwarded }

/-- The route after an abort of its open frame, or after the end of its skip; an IDLE route as it was (R6, R33, R41,
R62, R63). -/
def Route.ended (x : Route) (reason : AbortReason) : Route :=
  match x.assembly with
  | .assembling _ _ =>
    { x with
      assembly := reason.assemblyAfter
      heldSegments := x.heldSegments - x.lineSegments
      idleTimer := .stopped
      gate := x.gate.afterAbort reason
      counters := x.counters.countAbort reason }
  | .skipping => { x with assembly := .idle, idleTimer := .stopped }
  | .idle => x

/-- The records that ending a route's ingress frame queues: the abort mark of an open frame. -/
def Route.endRecords (x : Route) (r : Fin 64) (reason : AbortReason) : List StreamRecord :=
  match x.assembly with
  | .assembling frame _ => [abortRecord r x frame reason]
  | _ => []

/-- The notices that ending a route's ingress frame raises. -/
def Route.endNotices (x : Route) (r : Fin 64) (reason : AbortReason) : List NoticeInfo :=
  match x.assembly with
  | .assembling frame _ => abortNotices r x.gate reason frame.number
  | _ => []

/-- The pool after lines in assembly with these segments and descriptors were freed (R81). -/
def Pool.freed (pool : Pool) (segments descriptors : Nat) : Pool :=
  { pool with freeSegments := pool.freeSegments + segments, freeDescriptors := pool.freeDescriptors + descriptors }

/-- `u` is `s` after the ingress frame of route `r` was taken away for this reason (R41, R62, R63). -/
def FrameEnded (s u : State) (r : Fin 64) (reason : AbortReason) : Prop :=
  SameBut s u [.routes, .pool, .queue, .notices] ∧ OnlyRoute s u r ∧
  u.route r = (s.route r).ended reason ∧
  u.queue = s.queue ++ (s.route r).endRecords r reason ∧
  u.pool = s.pool.freed (s.route r).lineSegments (s.route r).linesInAssembly ∧
  u.notices = s.notices.raiseAll ((s.route r).endNotices r reason)

/-- The sixteen routes of a port in ascending route number (R6). -/
def routesOf (p : Fin 4) : List (Fin 64) := (List.finRange 16).map (routeOf p)

/-- `u` is `s` after the sixteen routes of port `p` were visited for this reason, ports aside (R6, R8). -/
def PortVisited (s u : State) (p : Fin 4) (reason : AbortReason) (last : List NoticeInfo) : Prop :=
  (∀ r, portOf r = p → u.route r = (s.route r).ended reason) ∧
  (∀ r, portOf r ≠ p → u.route r = s.route r) ∧
  u.queue = s.queue ++ (routesOf p).flatMap (fun r => (s.route r).endRecords r reason) ∧
  u.pool = s.pool.freed ((routesOf p).map fun r => (s.route r).lineSegments).sum
    ((routesOf p).map fun r => (s.route r).linesInAssembly).sum ∧
  u.notices = s.notices.raiseAll ((routesOf p).flatMap (fun r => (s.route r).endNotices r reason) ++ last)

/-! ## Headers, packets and hold points (sections 1.3, 3.3 and 5.5) -/

/-- A header event is possible: the part is not held, the port is not OFF, it is aligned and receives no packet
(R2, R163). -/
def HeaderComes (s : State) (p : Fin 4) : Prop :=
  s.resetLine = .high ∧ (s.port p).state ≠ .off ∧ (s.port p).aligned = true ∧ (s.port p).reception = none

/-- The port after a good header: ACTIVE, PACKETS moved, the packet in reception, and its class counted (R4, R7, R9,
R10). -/
def Port.headed (x : Port) (reception : Reception) (count : PortCounters → PortCounters) : Port :=
  { x with
    state := .active
    reception := some reception
    counters := count { x.counters with packets := bump x.counters.packets } }

/-- The notices of a good header: PORT_UP when the port was not ACTIVE (R4, R7). -/
def Port.upNotices (x : Port) (p : Fin 4) : List NoticeInfo :=
  if x.state = .active then [] else [.portUp p x.lanes]

/-- The segments a packet needs, as R67 gives them. -/
def segmentsNeeded (length : Nat) : Nat := if length ≤ 256 then 1 else (length + 255) / 256

/-- A TO_ROUTE packet ends: the part is not held and the packet is in reception at the port. -/
def PacketEnds (s : State) (p : Fin 4) (x : Reception) (header : PacketHeader) : Prop :=
  s.resetLine = .high ∧ (s.port p).reception = some x ∧ x.disposition = .toRoute ∧ x.header = some header

/-- No armed hold point of the route has this condition (R98). -/
def Route.Untested (x : Route) (condition : HoldCondition) : Prop :=
  ∀ h, x.holdPoint = some h → h.armed = true → h.condition ≠ condition

/-- The route has an armed hold point of this kind and condition (R20). -/
def Route.HasArmed (x : Route) (kind : HoldKind) (condition : HoldCondition) : Prop :=
  x.holdPoint = some { kind, condition, armed := true }

/-- The same hold point, disarmed by its firing (R99). -/
def disarmed (kind : HoldKind) (condition : HoldCondition) : Option HoldPoint :=
  some { kind, condition, armed := false }

/-- The gate after a FORCE hold point took effect (R100). -/
def Gate.forced (gate : Gate) : Gate :=
  match gate with
  | .opened => .closing
  | _ => gate

/-- The admission test's three conditions (R75). -/
def Pool.Admits (pool : Pool) (x : Route) : Prop :=
  x.config.floor ≤ pool.freeSegments ∧ x.heldSegments + x.config.floor ≤ x.config.cap ∧ 2 ≤ pool.freeDescriptors

/-- The pool after an admission took its two descriptors (R76). -/
def Pool.admitted (pool : Pool) : Pool :=
  { pool with
    freeDescriptors := pool.freeDescriptors - 2
    descriptorLowMark := min pool.descriptorLowMark (pool.freeDescriptors - 2) }

/-- The allocation test's three conditions for `n` segments (R78). -/
def Allocates (s : State) (r : Fin 64) (n : Nat) : Prop :=
  n ≤ s.pool.freeSegments ∧ (s.route r).heldSegments + n ≤ (s.route r).config.cap ∧ 1 ≤ s.pool.freeDescriptors

/-- The pool after `n` segments and `d` descriptors were granted: the low marks follow a fall (R66, R76, R78). -/
def Pool.granted (pool : Pool) (n d : Nat) : Pool :=
  { freeSegments := pool.freeSegments - n
    freeDescriptors := pool.freeDescriptors - d
    segmentLowMark := min pool.segmentLowMark (pool.freeSegments - n)
    descriptorLowMark := min pool.descriptorLowMark (pool.freeDescriptors - d) }

/-- A record of a route under the trunk channel its entry holds (R23). -/
def StreamRecord.of (r : Fin 64) (x : Route) (segments : Nat) (body : RecordBody) : StreamRecord :=
  { route := r, trunkChannel := x.config.trunkChannel, segments, body }

/-- The open-frame record at admission (R47 step 3). -/
def OpenFrame.fresh (mark : OpeningMark) (mode : Mode) : OpenFrame :=
  { number := mark.number, declaredLines := mark.declaredLines, declaredBytes := mark.declaredBytes, received := 0,
    forwarded := 0, damagedLines := false, overrun := false,
    sealValue := if mode = .sealed then some 0xFFFFFFFF#32 else none }

/-! ## Part reset (R164) -/

/-- The part right after a part reset with this cause, epoch and straps: the reset values of R1, R18, R85, R110,
R126, R144, R150 and R166, every counter 0, RESET_DONE held with sequence 1 and in transmission on CP_TXD. -/
def IsReset (t : State) (cause : ResetCause) (epoch : Nat) (straps : Straps) : Prop :=
  (∀ p, t.port p =
    { state := .off, lanes := .four, aligned := false, reception := none, counters := {} }) ∧
  (∀ r, t.route r =
    { config :=
        { trunkChannel := r.val, mode := .plain, filter := [], overrideCode := none, policy := .forward, cap := 512,
          floor := 32, idleLimit := 100 }
      holdPoint := none, gate := .disabled, assembly := .idle, heldSegments := 0, refusalRun := false,
      idleTimer := .stopped, counters := {} }) ∧
  t.pool = { freeSegments := 2048, freeDescriptors := 1024, segmentLowMark := 2048, descriptorLowMark := 1024 } ∧
  t.queue = [] ∧
  t.sender = { credits := 0, inFlight := .nothing, headInterrupted := false, stallTimer := .stopped,
               stalled := false, wire := [] } ∧
  t.link = { state := if straps.autoTrain then .training else .halted, epoch, autoTrain := straps.autoTrain,
             reverseAligned := false, trainTimer := if straps.autoTrain then .running 20 else .stopped,
             retryTimer := .stopped } ∧
  t.trunkCounters = {} ∧
  t.receiver = { state := .idle, position := .length, length := none, record := [], gapTimer := .stopped } ∧
  t.rate = rateOf straps ∧
  (∀ src, t.source src = { inbox := none, cache := none, slot := none, counters := {} }) ∧
  t.arbiter = none ∧ t.resetPending = none ∧
  t.lease = { holder := none, time := 2000, timer := .stopped } ∧
  t.resetCause = cause ∧ t.resetLine = .high ∧
  t.notices = { held := [{ sequence := 1, info := .resetDone cause epoch, sent := false }], nextSequence := 2,
                lost := 0, mask := .reset, destination := .localSource } ∧
  t.transmitter.sending = .notice 1

/-! ## Served command records -/

/-- The part is not held, and the executor takes next a record with this code from this source (R153, R163). -/
def Serves (s : State) (src : Source) (record : CommandRecord) (code : Byte) : Prop :=
  s.resetLine = .high ∧ s.nextRecord = some (src, record) ∧ record.code = code

/-- The state after an execution whose effects left the part as `b`: the reply is built and placed, and the event
ends (R154 steps 4 to 6, R112, R156). What `reply` and `finish` do is stated on its own. -/
def State.answered (b : State) (src : Source) (record : CommandRecord) (status : Status) (results : List Byte) :
    State :=
  (b.reply src { sequence := record.sequence, code := record.code, status, results }).finish

/-- The command is refused: apart from taking the record and answering it nothing happens (R154, R155). -/
def Refuses (i : Instr) (s : State) (src : Source) (record : CommandRecord) (status : Status)
    (details : List Byte) : Prop :=
  exec i s = .next ((s.takeRecord src).answered src record status details)

/-- A record whose covered bytes (the length byte and the body) came with these check bytes is judged and delivered:
what becomes of its source (R148, R149, R151). A wrong check is BAD_CHECK; a type other than COMMAND is FRAMING; a good
record moves GOOD_RECORDS and is discarded at a full inbox, answered from the cache when it has the cached sequence and
the output slot is empty, discarded when the slot is not, and otherwise placed in the inbox. -/
def JudgedAndDelivered (x : SourceState) (covered check : List Byte) (becomes : SourceState → Prop) : Prop :=
  let c := x.counters
  let good := { c with goodRecords := bump c.goodRecords }
  let body := covered.drop 1
  (checkBytes (recordCheck covered) ≠ check → becomes { x with counters := { c with badCheck := bump c.badCheck } }) ∧
  (checkBytes (recordCheck covered) = check → body.head? ≠ some 0x01 →
    becomes { x with counters := { c with framing := bump c.framing } }) ∧
  ∀ sequence code arguments, checkBytes (recordCheck covered) = check → body = 0x01 :: sequence :: code :: arguments →
    (x.inbox ≠ none ∨ (x.slot ≠ none ∧ ∃ reply, x.cache = some reply ∧ reply.sequence = sequence) →
      becomes { x with counters := { good with inboxOverrun := bump c.inboxOverrun } }) ∧
    (∀ reply, x.inbox = none → x.slot = none → x.cache = some reply → reply.sequence = sequence →
      becomes { x with slot := some reply, counters := { good with replays := bump c.replays } }) ∧
    (x.inbox = none → (∀ reply, x.cache = some reply → reply.sequence ≠ sequence) →
      becomes { x with inbox := some { sequence, code, arguments }, counters := good })

/-- The commands marked lease for every argument, with their codes (section 10.3), HOLD, RELEASE and STEP aside, whose
refusals carry their results. -/
def leaseCommands : List (Instr × Byte) :=
  [(.leaseTime, 0x04), (.resetPart, 0x05), (.portSet, 0x10), (.routeWrite, 0x21), (.routeEnable, 0x22),
    (.routeDisable, 0x23), (.holdpointSet, 0x2B), (.holdpointClear, 0x2C), (.trunkHalt, 0x41), (.trunkStart, 0x42),
    (.trunkRetrain, 0x43), (.noticeMask, 0x52), (.noticeRoute, 0x53)]

/-- HOLD, RELEASE and STEP with their codes. -/
def gateCommands : List (Instr × Byte) := [(.hold, 0x28), (.release, 0x29), (.step, 0x2A)]

/-- The commands open to any source whose arguments have one length, with their codes and that length (section
10.3), CLAIM and DROP aside, whose refusals carry results. -/
def openCommands : List (Instr × Byte × Nat) :=
  [(.identify, 0x01, 0), (.portStatus, 0x11, 1), (.routeRead, 0x20, 1), (.tableScan, 0x24, 0),
    (.poolStatus, 0x30, 1), (.trunkStatus, 0x40, 0), (.noticeAck, 0x50, 2), (.noticeReplay, 0x51, 0)]

/-- The commands marked lease whose arguments have one length, with their codes and that length (section 10.3). -/
def fixedLeaseCommands : List (Instr × Byte × Nat) :=
  [(.leaseTime, 0x04, 2), (.resetPart, 0x05, 0), (.portSet, 0x10, 3), (.routeEnable, 0x22, 1),
    (.routeDisable, 0x23, 1), (.hold, 0x28, 1), (.release, 0x29, 1), (.step, 0x2A, 1), (.holdpointClear, 0x2C, 1),
    (.trunkHalt, 0x41, 0), (.trunkStart, 0x42, 0), (.trunkRetrain, 0x43, 0), (.noticeMask, 0x52, 10),
    (.noticeRoute, 0x53, 1)]

/-- The first three checks of a lease command whose arguments have the length `n`, in their order: NO_LEASE, BAD_LENGTH,
and BAD_ARG for arguments that are out of range. A refusal carries no results. -/
def LeaseChecks (i : Instr) (code : Byte) (n : Nat) (outOfRange : List Byte → Prop) : Prop :=
  ∀ s src record, Serves s src record code →
    (s.lease.holder ≠ some src → Refuses i s src record .noLease []) ∧
    (s.lease.holder = some src → record.arguments.length ≠ n → Refuses i s src record .badLength []) ∧
    (s.lease.holder = some src → record.arguments.length = n → outOfRange record.arguments →
      Refuses i s src record .badArg [])

/-- One route number above 63. -/
def routeOutOfRange (arguments : List Byte) : Prop := ∃ r, arguments = [r] ∧ 63 < r.toNat

/-- The commands that take a part reset (R162, R163). -/
def mayReset : Instr → Bool
  | .powerOn _ _ | .resetNReleased _ | .graceExpiry _ | .controlPortCompletion _ | .transmissionCompletion _ => true
  | _ => false

/-! ## ROUTE_WRITE arguments as a host writes them (R28, section 10.3) -/

/-- The field selection byte of an edit: bit 0 for the trunk channel to bit 7 for the frame idle limit. -/
def RouteEdit.selection (edit : RouteEdit) : Byte :=
  byte (flagBit edit.trunkChannel.isSome 0 + flagBit edit.mode.isSome 1 + flagBit edit.filter.isSome 2
    + flagBit edit.overrideCode.isSome 3 + flagBit edit.policy.isSome 4 + flagBit edit.cap.isSome 5
    + flagBit edit.floor.isSome 6 + flagBit edit.idleLimit.isSome 7)

/-- The values of an edit, one after another in R19 order. -/
def RouteEdit.values (edit : RouteEdit) : List Byte :=
  edit.trunkChannel.toList ++ edit.mode.toList
    ++ (match edit.filter with | some codes => byte codes.length :: codes | none => [])
    ++ edit.overrideCode.toList ++ edit.policy.toList ++ edit.cap.toList.flatMap word16
    ++ edit.floor.toList.flatMap word16 ++ edit.idleLimit.toList.flatMap word16

/-- An edit that arguments can spell: a filter of at most four codes, two-byte values below 65,536. -/
def RouteEdit.Spellable (edit : RouteEdit) : Prop :=
  (∀ codes ∈ edit.filter, codes.length ≤ 4) ∧ (∀ n ∈ edit.cap, n < 65536) ∧ (∀ n ∈ edit.floor, n < 65536) ∧
  ∀ n ∈ edit.idleLimit, n < 65536

end Sys2Proof.Machine
end

