-- ==== Sys2Proof/Certificates/Slice0/Obligations.lean ====
section
/-! DEFINITION. The statements for the provers, in five groups: the queue and what all events share; ingress and frame
assembly; the control port and the executor; the trunk; and the laws that every step keeps. OBLIGATIONS.json says of
each what it claims and what it rests on. A statement about an event gives the state `u` that the event's own effects
leave; the event's next state is `u.finish`, whose effects the two EndOfEvent statements give. A statement about an
execution gives the state `b` after the command's effects; `answered` then places the reply (ReplyIsPlacedAndCached)
and ends the event. -/

open Sys2Proof Sys2Proof.Machine

/-! ## The queue and what all events share -/

/-- The command at the front of the queue runs on the state with the queue's rest, and an empty queue idles (the
model's queue, log entry 1). -/
def Obligations.FrontCommandRuns : Prop :=
  (∀ c rest (s : State), step { s with pending := c :: rest } = exec c { s with pending := rest }) ∧
  ∀ s, s.pending = [] → step s = .next s

/-- Every command answers a next state in every state, and leaves the queue of waiting commands as it is. (That an event
which cannot happen in a state changes nothing is the model's choice, log entry 8.) -/
def Obligations.EveryCommandAnswers : Prop :=
  ∀ c s, ∃ t, exec c s = .next t ∧ t.pending = s.pending

/-- R156 and R172: at the end of an event a free control port starts the reply in the local output slot, else the
oldest eligible notice under destination LOCAL, else nothing; a busy one goes on. The record it drives is that of
section 10.2. The end of an event touches the two transmitters and RESENDS alone. -/
def Obligations.EndOfEventStartsTheControlPort : Prop :=
  ∀ s : State,
    SameBut s s.finish [.transmitter, .sender, .trunkCounters] ∧
    (s.transmitter.sending ≠ .nothing → s.finish.transmitter = s.transmitter) ∧
    (s.transmitter.sending = .nothing →
      (∀ reply, s.sourceLocal.slot = some reply →
        s.finish.transmitter = { sending := .reply, wire := portRecord reply.body }) ∧
      (s.sourceLocal.slot = none →
        (∀ n, s.notices.destination = .localSource → s.Offers n →
          s.finish.transmitter = { sending := .notice n.sequence, wire := portRecord n.body }) ∧
        (s.notices.destination ≠ .localSource ∨ s.OffersNone → s.finish.transmitter = s.transmitter)))

/-- R111, R112 and R113: at the end of an event a free sender of a LOCKED link starts the reply in the remote output
slot, else the oldest eligible notice under destination REMOTE, else the head stream record if there is a credit,
which costs one credit and, after an interruption, moves RESENDS; else it starts nothing. -/
def Obligations.EndOfEventStartsTheSender : Prop :=
  ∀ s : State,
    (s.sender.inFlight ≠ .nothing ∨ s.link.state ≠ .locked →
      s.finish.sender.inFlight = s.sender.inFlight ∧ s.finish.sender.wire = s.sender.wire ∧
      s.finish.sender.credits = s.sender.credits ∧ s.finish.sender.headInterrupted = s.sender.headInterrupted ∧
      s.finish.trunkCounters = s.trunkCounters) ∧
    (s.sender.inFlight = .nothing → s.link.state = .locked →
      (∀ reply, s.sourceRemote.slot = some reply →
        s.finish.sender.inFlight = .reply ∧ s.finish.sender.wire = trunkReply reply ∧
        s.finish.sender.credits = s.sender.credits ∧ s.finish.sender.headInterrupted = s.sender.headInterrupted ∧
        s.finish.trunkCounters = s.trunkCounters) ∧
      (s.sourceRemote.slot = none →
        (∀ n, s.notices.destination = .remoteSource → s.Offers n →
          s.finish.sender.inFlight = .notice n.sequence ∧ s.finish.sender.wire = trunkNotice n ∧
          s.finish.sender.credits = s.sender.credits ∧
          s.finish.sender.headInterrupted = s.sender.headInterrupted ∧
          s.finish.trunkCounters = s.trunkCounters) ∧
        (s.notices.destination ≠ .remoteSource ∨ s.OffersNone →
          (∀ record rest, s.queue = record :: rest → 1 ≤ s.sender.credits →
            s.finish.sender.inFlight = .stream ∧ s.finish.sender.wire = record.bytes ∧
            s.finish.sender.credits = s.sender.credits - 1 ∧ s.finish.sender.headInterrupted = false ∧
            s.finish.trunkCounters =
              { s.trunkCounters with
                resends := if s.sender.headInterrupted then bump s.trunkCounters.resends
                  else s.trunkCounters.resends }) ∧
          (s.queue = [] ∨ s.sender.credits = 0 →
            s.finish.sender.inFlight = .nothing ∧ s.finish.sender.wire = s.sender.wire ∧
            s.finish.sender.credits = s.sender.credits ∧
            s.finish.sender.headInterrupted = s.sender.headInterrupted ∧
            s.finish.trunkCounters = s.trunkCounters))))

/-- R153: the executor takes a record exactly when no reset is pending, the record is in the source's inbox, the
source's output slot is empty and, when the other inbox qualifies too, the arbiter memory names the turn; the choice
empties that inbox and remembers the source. -/
def Obligations.ArbiterAlternates : Prop :=
  (∀ (s : State) src record,
    s.nextRecord = some (src, record) ↔
      s.resetPending = none ∧ (s.source src).inbox = some record ∧ (s.source src).slot = none ∧
      ∀ other, other ≠ src → (s.source other).inbox.isSome = true → (s.source other).slot = none →
        (src = .localSource ↔ s.arbiter ≠ some .localSource)) ∧
  ∀ (s : State) src,
    SameBut s (s.takeRecord src) [src.piece, .arbiter] ∧
    (s.takeRecord src).source src = { s.source src with inbox := none } ∧
    (s.takeRecord src).arbiter = some src

/-- R154 steps 4 to 6 with R157: the reply is placed in the source's output slot and replaces its cache, EXECUTED
moves, NOT_OK moves for a status other than OK, and the lease timer restarts for a source that holds the lease. -/
def Obligations.ReplyIsPlacedAndCached : Prop :=
  ∀ (b : State) src reply,
    SameBut b (b.reply src reply) [src.piece, .lease] ∧
    (b.reply src reply).source src =
      { b.source src with
        slot := some reply
        cache := some reply
        counters :=
          { (b.source src).counters with
            executed := bump (b.source src).counters.executed
            notOk := if reply.status = .ok then (b.source src).counters.notOk
              else bump (b.source src).counters.notOk } } ∧
    (b.lease.holder = some src → (b.reply src reply).lease = { b.lease with timer := .running b.lease.time }) ∧
    (b.lease.holder ≠ some src → (b.reply src reply).lease = b.lease)

/-- R168 with R167's room: a raise of a masked kind changes nothing; with room the notice is appended UNSENT under
the next sequence; without room the lost count rises and stays at 65,535. -/
def Obligations.RaisedNoticeIsHeldOrCounted : Prop :=
  ∀ (q : NoticeQueue) info,
    (q.mask.masks info = true → q.raise info = q) ∧
    (q.mask.masks info = false →
      ((q.held.length < 16 ∧ (q.nextSequence = 1 → q.held = [])) →
        q.raise info =
          { q with
            held := q.held ++ [{ sequence := q.nextSequence, info, sent := false }]
            nextSequence := if q.nextSequence = 65535 then 1 else q.nextSequence + 1 }) ∧
      (¬(q.held.length < 16 ∧ (q.nextSequence = 1 → q.held = [])) →
        q.raise info = { q with lost := if q.lost < 65535 then q.lost + 1 else q.lost })) ∧
    (∀ cause epoch, q.mask.masks (.resetDone cause epoch) = false) ∧
    ∀ count, q.mask.masks (.noticesLost count) = false

/-! ## Ingress and frame assembly -/

/-- R2, R4, R5, R6 and R7: at a port that is not OFF, alignment achieved sets aligned to yes. In SEEKING and LOST
alignment lost ends a discarded packet without counting it; in ACTIVE the port is LOST, its packet is cut, its sixteen
routes end their frames in ascending order with reason PORT_LOST, and PORT_LOST is raised last. (The packet that
alignment loss ends in LOST is the model's reading, log entry 16.) -/
def Obligations.AlignmentEventsMoveThePort : Prop :=
  (∀ p s, s.resetLine = .high → (s.port p).state ≠ .off →
    ∃ u, exec (.alignmentAchieved p) s = .next u.finish ∧ SameBut s u [.ports] ∧ OnlyPort s u p ∧
      u.port p = { s.port p with aligned := true }) ∧
  (∀ p s, s.resetLine = .high → (s.port p).state = .seeking ∨ (s.port p).state = .lost →
    ∃ u, exec (.alignmentLost p) s = .next u.finish ∧ SameBut s u [.ports] ∧ OnlyPort s u p ∧
      u.port p = { s.port p with aligned := false, reception := none }) ∧
  ∀ p s, s.resetLine = .high → (s.port p).state = .active →
    ∃ u, exec (.alignmentLost p) s = .next u.finish ∧
      SameBut s u [.ports, .routes, .pool, .queue, .notices] ∧ OnlyPort s u p ∧
      u.port p =
        { s.port p with
          state := .lost
          aligned := false
          reception := none
          counters :=
            { (s.port p).counters with
              alignLosses := bump (s.port p).counters.alignLosses
              cutPackets := if (s.port p).reception = none then (s.port p).counters.cutPackets
                else bump (s.port p).counters.cutPackets } } ∧
      PortVisited s u p .portLost [.portLost p]

/-- R9, with R4 and R7: a header that fails its check or is too long moves HEADER_ERRORS and makes a packet to be
discarded, in whatever state the port is. -/
def Obligations.FailedHeaderIsCountedAndDiscarded : Prop :=
  ∀ p header s, HeaderComes s p →
    headerCheck [headerByte header 0, headerByte header 1, headerByte header 2] ≠ headerByte header 3 ∨
      8192 < headerLength header →
    ∃ u, exec (.headerEvent p header) s = .next u.finish ∧ SameBut s u [.ports] ∧ OnlyPort s u p ∧
      u.port p =
        { s.port p with
          reception := some (newReception none .headerError)
          counters :=
            { (s.port p).counters with headerErrors := bump (s.port p).counters.headerErrors } }

/-- R4, R7 and R10, and R40, R41 and R54 at the route: a good header makes the port ACTIVE, moves PACKETS and is
classified. An unassigned mark and a packet of a DISABLED route are counted and touch no route. Otherwise the
packet is TO_ROUTE and stops the route's timer; a mark does no more, and a line or side packet at a SKIPPING or IDLE
route is counted there. -/
def Obligations.GoodHeaderIsClassified : Prop :=
  ∀ p header s, HeaderComes s p → headerPasses header = true →
    let f := headerFields header
    let r := routeOf p f.channel
    (0x02 ≤ f.code → f.code ≤ 0x07 →
      ∃ u, exec (.headerEvent p header) s = .next u.finish ∧ SameBut s u [.ports, .notices] ∧ OnlyPort s u p ∧
        u.port p = (s.port p).headed (newReception (some f) .unknownKind)
          (fun c => { c with unknownKind := bump c.unknownKind }) ∧
        u.notices = s.notices.raiseAll ((s.port p).upNotices p)) ∧
    (f.code < 0x02 ∨ 0x07 < f.code → (s.route r).gate = .disabled →
      ∃ u, exec (.headerEvent p header) s = .next u.finish ∧ SameBut s u [.ports, .notices] ∧ OnlyPort s u p ∧
        u.port p = (s.port p).headed (newReception (some f) .unrouted)
          (fun c => { c with unrouted := bump c.unrouted }) ∧
        u.notices = s.notices.raiseAll ((s.port p).upNotices p)) ∧
    (f.code < 0x02 ∨ (0x07 < f.code ∧ ((s.route r).assembly = .skipping ∨ (s.route r).assembly = .idle)) →
      (s.route r).gate ≠ .disabled →
      ∃ u, exec (.headerEvent p header) s = .next u.finish ∧ SameBut s u [.ports, .routes, .notices] ∧
        OnlyPort s u p ∧ OnlyRoute s u r ∧
        u.port p = (s.port p).headed (newReception (some f) .toRoute) (fun c => c) ∧
        u.notices = s.notices.raiseAll ((s.port p).upNotices p) ∧
        u.route r =
          { s.route r with
            idleTimer := .stopped
            counters :=
              if f.code < 0x02 then (s.route r).counters
              else if (s.route r).assembly = .skipping then
                { (s.route r).counters with skippedPackets := bump (s.route r).counters.skippedPackets }
              else { (s.route r).counters with orphans := bump (s.route r).counters.orphans } })

/-- R51, R52, R53, R11 and R78: at an ASSEMBLING route a line packet within the declared lines, or a side packet, that
no armed CONTENT hold point names, that the filter passes and whose resources are there, takes n segments and a
descriptor and becomes the line in assembly; a line counts as received, and one longer than the declared line bytes
is LONG. -/
def Obligations.HeaderBecomesTheLineInAssembly : Prop :=
  ∀ p header s frame, HeaderComes s p → headerPasses header = true →
    let f := headerFields header
    let r := routeOf p f.channel
    let x := s.route r
    let n := segmentsNeeded f.length
    let isLong := 0x10 ≤ f.code ∧ frame.declaredBytes < f.length
    0x08 ≤ f.code → x.gate ≠ .disabled → x.assembly = .assembling frame none → x.Untested (.content f.code) →
    (0x10 ≤ f.code → frame.received < frame.declaredLines) → (x.config.filter = [] ∨ f.code ∈ x.config.filter) →
    Allocates s r n →
    ∃ u, exec (.headerEvent p header) s = .next u.finish ∧ SameBut s u [.ports, .routes, .pool, .notices] ∧
      OnlyPort s u p ∧ OnlyRoute s u r ∧
      u.port p = (s.port p).headed
        { newReception (some f) .toRoute with long := decide isLong }
        (fun c => { c with longLines := if isLong then bump c.longLines else c.longLines }) ∧
      u.notices = s.notices.raiseAll ((s.port p).upNotices p) ∧
      u.pool = s.pool.granted n 1 ∧
      u.route r =
        { x with
          idleTimer := .stopped
          heldSegments := x.heldSegments + n
          assembly := .assembling
            { frame with received := if 0x10 ≤ f.code then frame.received + 1 else frame.received }
            (some { code := f.code, segments := n, payload := [] }) }

/-- R51, R52, R53 and R79: at an ASSEMBLING route a line beyond the declared lines is an overrun line; a packet the
filter does not pass is filtered; and a packet whose resources are not there aborts the frame with reason STARVED and
is skipped. None of them takes a segment or a descriptor. -/
def Obligations.HeaderIsOverrunFilteredOrStarved : Prop :=
  ∀ p header s frame, HeaderComes s p → headerPasses header = true →
    let f := headerFields header
    let r := routeOf p f.channel
    let x := s.route r
    let counted := { frame with received := if 0x10 ≤ f.code then frame.received + 1 else frame.received }
    0x08 ≤ f.code → x.gate ≠ .disabled → x.assembly = .assembling frame none → x.Untested (.content f.code) →
    (0x10 ≤ f.code → frame.declaredLines ≤ frame.received →
      ∃ u, exec (.headerEvent p header) s = .next u.finish ∧ SameBut s u [.ports, .routes, .notices] ∧
        OnlyPort s u p ∧ OnlyRoute s u r ∧
        u.port p = (s.port p).headed (newReception (some f) .toRoute) (fun c => c) ∧
        u.notices = s.notices.raiseAll ((s.port p).upNotices p) ∧
        u.route r =
          { x with
            idleTimer := .stopped
            assembly := .assembling { frame with overrun := true } none
            counters := { x.counters with overrunLines := bump x.counters.overrunLines } }) ∧
    ((0x10 ≤ f.code → frame.received < frame.declaredLines) → x.config.filter ≠ [] → f.code ∉ x.config.filter →
      ∃ u, exec (.headerEvent p header) s = .next u.finish ∧ SameBut s u [.ports, .routes, .notices] ∧
        OnlyPort s u p ∧ OnlyRoute s u r ∧
        u.port p = (s.port p).headed (newReception (some f) .toRoute) (fun c => c) ∧
        u.notices = s.notices.raiseAll ((s.port p).upNotices p) ∧
        u.route r =
          { x with
            idleTimer := .stopped
            assembly := .assembling counted none
            counters := { x.counters with filtered := bump x.counters.filtered } }) ∧
    ((0x10 ≤ f.code → frame.received < frame.declaredLines) →
      (x.config.filter = [] ∨ f.code ∈ x.config.filter) → ¬ Allocates s r (segmentsNeeded f.length) →
      ∃ u, exec (.headerEvent p header) s = .next u.finish ∧ SameBut s u [.ports, .routes, .queue, .notices] ∧
        OnlyPort s u p ∧ OnlyRoute s u r ∧
        u.port p = (s.port p).headed (newReception (some f) .toRoute) (fun c => c) ∧
        u.notices = s.notices.raiseAll
          ((s.port p).upNotices p ++ abortNotices r x.gate .starved frame.number) ∧
        u.queue = s.queue ++ [abortRecord r x counted .starved] ∧
        u.route r =
          { x with
            idleTimer := .stopped
            assembly := .skipping
            gate := x.gate.afterAbort .starved
            counters :=
              { x.counters.countAbort .starved with skippedPackets := bump x.counters.skippedPackets } })

/-- R11, R12 and R58: bytes of a packet in reception are taken into its record, and those that count as payload go to
the line in assembly of a TO_ROUTE packet's route, up to the header length. DeliveredPacketIsJudged says what the
record then holds. -/
def Obligations.PayloadBytesAreCollected : Prop :=
  ∀ p bytes s x, s.resetLine = .high → (s.port p).reception = some x →
    ∃ u, exec (.bytesReceived p bytes) s = .next u.finish ∧ SameBut s u [.ports, .routes] ∧ OnlyPort s u p ∧
      u.port p = { s.port p with reception := some (x.deliver bytes) } ∧
      (x.disposition ≠ .toRoute → u.routes = s.routes) ∧
      ∀ header, x.disposition = .toRoute → x.header = some header →
        let r := routeOf p header.channel
        OnlyRoute s u r ∧
        (∀ frame line, (s.route r).assembly = .assembling frame (some line) →
          u.route r =
            { s.route r with
              assembly := .assembling frame
                (some { line with payload := (line.payload ++ x.settled bytes).take header.length }) }) ∧
        ((∀ frame line, (s.route r).assembly ≠ .assembling frame (some line)) → u.route r = s.route r)

/-- R12, R13 and R183: however the bytes of a packet come in, its last two are its payload check and the bytes before
them its payload. The check matches when those two bytes are the check of the payload, low byte first; the payload byte
count is the number of bytes before them; and the packet is intact exactly when the check matches and the count is the
header length. The payload of a good mark is its fields; a mark of another size or another header length is not
good. -/
def Obligations.DeliveredPacketIsJudged : Prop :=
  (∀ header d first second, ((newReception header d).deliver first).deliver second
      = (newReception header d).deliver (first ++ second)) ∧
  (∀ header d payload lo hi,
    let x := (newReception header d).deliver (payload ++ [lo, hi])
    (newReception header d).settled (payload ++ [lo, hi]) = payload ∧
    (x.checkMatches = true ↔ checkBytes (recordCheck payload) = [lo, hi]) ∧
    (payload.length ≤ 65533 → x.payloadCount = payload.length) ∧
    ∀ f, payload.length ≤ 65533 ∨ f.length < 65533 →
      (x.intact f = true ↔ payload.length = f.length ∧ checkBytes (recordCheck payload) = [lo, hi])) ∧
  (∀ header d bytes f, bytes.length ≤ 1 →
    ((newReception header d).deliver bytes).checkMatches = false ∧
    ((newReception header d).deliver bytes).intact f = false) ∧
  (∀ f d n0 n1 l0 l1 b0 b1 lo hi, f.length = 6 →
    let x := (newReception (some f) d).deliver [n0, n1, l0, l1, b0, b1, lo, hi]
    let mark : OpeningMark :=
      { number := read16 n0 n1, declaredLines := read16 l0 l1, declaredBytes := read16 b0 b1 }
    x.openingMark f =
      if checkBytes (recordCheck [n0, n1, l0, l1, b0, b1]) = [lo, hi] ∧ 1 ≤ mark.declaredLines ∧
          mark.declaredLines ≤ 4095 ∧ 1 ≤ mark.declaredBytes ∧ mark.declaredBytes ≤ 8192
        then some mark else none) ∧
  (∀ f d n0 n1 lo hi, f.length = 2 →
    ((newReception (some f) d).deliver [n0, n1, lo, hi]).closingMark f =
      if checkBytes (recordCheck [n0, n1]) = [lo, hi] then some (read16 n0 n1) else none) ∧
  ∀ f d bytes,
    (bytes.length ≠ 8 ∨ f.length ≠ 6 → ((newReception (some f) d).deliver bytes).openingMark f = none) ∧
    (bytes.length ≠ 4 ∨ f.length ≠ 2 → ((newReception (some f) d).deliver bytes).closingMark f = none)

/-- R183: the channel stands in bits 0 to 3 of a sensor header, the content code in bits 4 to 9, the length in bits 10
to 23 and the header check in bits 24 to 31; and the header is sent byte by byte, its low byte first. -/
def Obligations.SensorHeaderFieldsReadBack : Prop :=
  ∀ (channel : Fin 16) (code length : Nat) (check : Byte), code < 64 → length < 16384 →
    let header : Header := BitVec.ofNat 32 (channel.val + 16 * code + 1024 * length + 16777216 * check.toNat)
    headerFields header = { channel, code, length } ∧
    headerByte header 0 = byte (channel.val + 16 * code) ∧
    headerByte header 1 = byte (code / 16 + 4 * length) ∧
    headerByte header 2 = byte (length / 64) ∧
    headerByte header 3 = check ∧
    (headerPasses header = true ↔ length ≤ 8192 ∧
      headerCheck [byte (channel.val + 16 * code), byte (code / 16 + 4 * length), byte (length / 64)] = check)

/-- R47 and R75, with R41, R43, R44, R59, R74 and R76: a good opening mark truncates an open frame or ends a skip (`e`
is the route then, and `pool` the pool). Under a gate OPEN or STEPPING, with no armed FRAME_NUMBER hold point on its
number and the admission test passed, it takes two descriptors, queues the opening mark record, opens the frame and
starts the frame idle timer. -/
def Obligations.OpeningMarkAdmits : Prop :=
  ∀ p s x header mark, PacketEnds s p x header → header.code = 0x00 → x.openingMark header = some mark →
    let r := routeOf p header.channel
    let y := s.route r
    let e := y.ended .truncated
    let pool := s.pool.freed y.lineSegments y.linesInAssembly
    e.gate = .opened ∨ e.gate = .stepping → y.Untested (.frameNumber mark.number) → pool.Admits e →
    ∃ u, exec (.endEvent p) s = .next u.finish ∧ SameBut s u [.ports, .routes, .pool, .queue, .notices] ∧
      OnlyPort s u p ∧ OnlyRoute s u r ∧
      u.port p = { s.port p with reception := none } ∧
      u.pool = pool.admitted ∧
      u.notices = s.notices.raiseAll (y.endNotices r .truncated) ∧
      u.queue = s.queue ++ y.endRecords r .truncated ++
        [.of r y 0 (.opening y.config.mode mark.number mark.declaredLines mark.declaredBytes)] ∧
      u.route r =
        { e with
          assembly := .assembling (.fresh mark y.config.mode) none
          idleTimer := .running y.config.idleLimit
          refusalRun := false
          counters := { e.counters with framesAdmitted := bump e.counters.framesAdmitted } }

/-- R43 to R46, R48, R49 and R77: a good opening mark truncates an open frame or ends a skip (`e` is the route then, and
`pool` the pool); at a SHUT gate, also one that the truncation made SHUT, the frame is then held off; and under OPEN and
STEPPING, with no armed FRAME_NUMBER hold point on its number, a frame that fails the admission test is refused, with
one FRAME_REFUSED for a run of refusals. -/
def Obligations.OpeningMarkIsRefusedHeldOffOrTruncates : Prop :=
  ∀ p s x header mark, PacketEnds s p x header → header.code = 0x00 → x.openingMark header = some mark →
    let r := routeOf p header.channel
    let y := s.route r
    let e := y.ended .truncated
    let pool := s.pool.freed y.lineSegments y.linesInAssembly
    let becomes (notices : List NoticeInfo) (z : Route) : Prop :=
      ∃ u, exec (.endEvent p) s = .next u.finish ∧ SameBut s u [.ports, .routes, .pool, .queue, .notices] ∧
        OnlyPort s u p ∧ OnlyRoute s u r ∧ u.port p = { s.port p with reception := none } ∧ u.pool = pool ∧
        u.queue = s.queue ++ y.endRecords r .truncated ∧
        u.notices = s.notices.raiseAll (y.endNotices r .truncated ++ notices) ∧ u.route r = z
    (e.gate = .shut →
      becomes []
        { e with
          assembly := .skipping
          idleTimer := .running y.config.idleLimit
          counters := { e.counters with heldOff := bump e.counters.heldOff } }) ∧
    (e.gate = .opened ∨ e.gate = .stepping → y.Untested (.frameNumber mark.number) → ¬ pool.Admits e →
      becomes (if y.refusalRun then [] else [.frameRefused r mark.number])
        { e with
          assembly := .skipping
          idleTimer := .running y.config.idleLimit
          refusalRun := true
          counters := { e.counters with refused := bump e.counters.refused } })

/-- R12, R41, R55 and R57 to R59: a packet that ends with its line in assembly is forwarded with the segments and the
descriptor it holds, unless it is damaged and the policy is ABORT, which aborts the frame with reason DAMAGE. A line
record carries the next line index and the override's code, and the seal runs over the payload forwarded. The end of
a line or side packet that is not its route's line in assembly changes nothing at the route but the timer. -/
def Obligations.LineEndForwardsOrAborts : Prop :=
  (∀ p s x header, PacketEnds s p x header → 0x08 ≤ header.code →
    let r := routeOf p header.channel
    let y := s.route r
    (∀ frame line, y.assembly ≠ .assembling frame (some line)) →
    ∃ u, exec (.endEvent p) s = .next u.finish ∧ SameBut s u [.ports, .routes] ∧ OnlyPort s u p ∧ OnlyRoute s u r ∧
      u.port p =
        { s.port p with
          reception := none
          counters :=
            { (s.port p).counters with
              payloadErrors := if x.intact header then (s.port p).counters.payloadErrors
                else bump (s.port p).counters.payloadErrors } } ∧
      u.route r =
        { y with idleTimer := if y.assembly = .idle then y.idleTimer else .running y.config.idleLimit }) ∧
  ∀ p s x header frame line, PacketEnds s p x header → 0x08 ≤ header.code →
    let r := routeOf p header.channel
    let y := s.route r
    y.assembly = .assembling frame (some line) →
    let damaged := !x.intact header || x.long
    let isLine := decide (0x10 ≤ line.code)
    let counted (c : PortCounters) : PortCounters :=
      { c with payloadErrors := if x.intact header then c.payloadErrors else bump c.payloadErrors }
    (damaged = false ∨ (y.Untested .damage ∧ y.config.policy = .forward) →
      ∃ u, exec (.endEvent p) s = .next u.finish ∧ SameBut s u [.ports, .routes, .queue] ∧ OnlyPort s u p ∧
        OnlyRoute s u r ∧
        u.port p = { s.port p with reception := none, counters := counted (s.port p).counters } ∧
        u.queue = s.queue ++
          [.of r y line.segments
            (if isLine then
              .line (y.config.overrideCode.getD line.code) damaged x.long (frame.forwarded + 1) line.payload
            else .side line.code damaged line.payload)] ∧
        u.route r =
          { y with
            idleTimer := .running y.config.idleLimit
            assembly := .assembling
              { frame with
                forwarded := if isLine then frame.forwarded + 1 else frame.forwarded
                damagedLines := frame.damagedLines || damaged
                sealValue := frame.sealValue.map fun v => sealFrom v line.payload }
              none
            counters :=
              { y.counters with
                linesForwarded := if isLine then bump y.counters.linesForwarded else y.counters.linesForwarded
                sidesForwarded := if isLine then y.counters.sidesForwarded else bump y.counters.sidesForwarded
                damagedForwarded :=
                  if damaged then bump y.counters.damagedForwarded else y.counters.damagedForwarded } }) ∧
    (damaged = true → y.Untested .damage → y.config.policy = .abort →
      ∃ u, exec (.endEvent p) s = .next u.finish ∧ SameBut s u [.ports, .routes, .pool, .queue, .notices] ∧
        OnlyPort s u p ∧ OnlyRoute s u r ∧
        u.port p = { s.port p with reception := none, counters := counted (s.port p).counters } ∧
        u.queue = s.queue ++ [abortRecord r y frame .damage] ∧
        u.pool = s.pool.freed line.segments 1 ∧
        u.notices = s.notices.raiseAll (abortNotices r y.gate .damage frame.number) ∧
        u.route r = { y.ended .damage with idleTimer := .running y.config.idleLimit })

/-- R60, R61, R41 and R92: a good closing mark closes an open frame with no line in assembly: the reservation becomes
the closing mark record with its flags and the seal, the route is IDLE and the gate takes the frame-end step. At a
SKIPPING route it ends the skip, at an IDLE one it is an orphan. -/
def Obligations.ClosingMarkCloses : Prop :=
  ∀ p s x header number, PacketEnds s p x header → header.code = 0x01 → x.closingMark header = some number →
    let r := routeOf p header.channel
    let y := s.route r
    (∀ frame, y.assembly = .assembling frame none →
      ∃ u, exec (.endEvent p) s = .next u.finish ∧ SameBut s u [.ports, .routes, .queue, .notices] ∧
        OnlyPort s u p ∧ OnlyRoute s u r ∧ u.port p = { s.port p with reception := none } ∧
        u.queue = s.queue ++
          [.of r y 0
            (.closing frame.damagedLines frame.overrun (decide (number ≠ frame.number))
              (decide (frame.received < frame.declaredLines)) frame.number frame.forwarded frame.sealValue)] ∧
        u.notices = s.notices.raiseAll (closeNotices r y.gate frame.number) ∧
        u.route r =
          { y with
            assembly := .idle
            idleTimer := .stopped
            gate := y.gate.afterClose
            counters :=
              { y.counters with
                framesClosed := bump y.counters.framesClosed
                shortFrames := if frame.received < frame.declaredLines then bump y.counters.shortFrames
                  else y.counters.shortFrames
                mismatches := if number ≠ frame.number then bump y.counters.mismatches
                  else y.counters.mismatches } }) ∧
    (y.assembly = .skipping →
      ∃ u, exec (.endEvent p) s = .next u.finish ∧ SameBut s u [.ports, .routes] ∧ OnlyPort s u p ∧
        OnlyRoute s u r ∧ u.port p = { s.port p with reception := none } ∧
        u.route r =
          { y with
            assembly := .idle
            idleTimer := .stopped
            counters := { y.counters with skippedPackets := bump y.counters.skippedPackets } }) ∧
    (y.assembly = .idle →
      ∃ u, exec (.endEvent p) s = .next u.finish ∧ SameBut s u [.ports, .routes] ∧ OnlyPort s u p ∧
        OnlyRoute s u r ∧ u.port p = { s.port p with reception := none } ∧
        u.route r = { y with counters := { y.counters with orphans := bump y.counters.orphans } })

/-- R9, R10, R13, R14 and R41: a mark that is not good moves MARK_ERRORS and only starts the timer of a route that is
ASSEMBLING or SKIPPING; a packet that is not TO_ROUTE just ends, and moves UNROUTED when ROUTE_DISABLE made it
UNROUTED. -/
def Obligations.OtherPacketsJustEnd : Prop :=
  (∀ p s x header, PacketEnds s p x header →
    (header.code = 0x00 ∧ x.openingMark header = none) ∨ (header.code = 0x01 ∧ x.closingMark header = none) →
    let r := routeOf p header.channel
    ∃ u, exec (.endEvent p) s = .next u.finish ∧ SameBut s u [.ports, .routes] ∧ OnlyPort s u p ∧ OnlyRoute s u r ∧
      u.port p =
        { s.port p with
          reception := none
          counters := { (s.port p).counters with markErrors := bump (s.port p).counters.markErrors } } ∧
      u.route r =
        { s.route r with
          idleTimer := if (s.route r).assembly = .idle then (s.route r).idleTimer
            else .running (s.route r).config.idleLimit }) ∧
  ∀ p s x, s.resetLine = .high → (s.port p).reception = some x → x.disposition ≠ .toRoute →
    ∃ u, exec (.endEvent p) s = .next u.finish ∧ SameBut s u [.ports] ∧ OnlyPort s u p ∧
      u.port p =
        { s.port p with
          reception := none
          counters :=
            { (s.port p).counters with
              unrouted := if x.disposition = .unrouted ∧ x.disabledMeanwhile = true
                then bump (s.port p).counters.unrouted else (s.port p).counters.unrouted } }

/-- R46, R50, R56, R93, R99 and R101: an armed TAG hold point whose test comes up disarms, raises HOLD_FIRED and makes
the gate SHUT with reason TAG. On FRAME_NUMBER the frame is held off, after the truncation of an open frame (`e` is the
route then), and HOLD_FIRED stands before the truncation's FRAME_ABORTED; on CONTENT and DAMAGE the open frame aborts
with reason HOLD and its rest is skipped. (PORT_UP comes before HOLD_FIRED only in states no run reaches, log entry
17.) -/
def Obligations.TagHoldPointStopsTheFrame : Prop :=
  (∀ p s x header mark, PacketEnds s p x header → header.code = 0x00 → x.openingMark header = some mark →
    let r := routeOf p header.channel
    let y := s.route r
    let e := y.ended .truncated
    e.gate = .opened ∨ e.gate = .stepping → y.HasArmed .tag (.frameNumber mark.number) →
    ∃ u, exec (.endEvent p) s = .next u.finish ∧ SameBut s u [.ports, .routes, .pool, .queue, .notices] ∧
      OnlyPort s u p ∧ OnlyRoute s u r ∧ u.port p = { s.port p with reception := none } ∧
      u.pool = s.pool.freed y.lineSegments y.linesInAssembly ∧
      u.queue = s.queue ++ y.endRecords r .truncated ∧
      u.notices = s.notices.raiseAll
        (.holdFired r mark.number .tag .frameNumber :: y.endNotices r .truncated
          ++ [.routeShut r .tag (some mark.number)]) ∧
      u.route r =
        { e with
          holdPoint := disarmed .tag (.frameNumber mark.number)
          gate := .shut
          assembly := .skipping
          idleTimer := .running y.config.idleLimit
          counters := { e.counters with heldOff := bump e.counters.heldOff } }) ∧
  (∀ p header s frame, HeaderComes s p → headerPasses header = true →
    let f := headerFields header
    let r := routeOf p f.channel
    let y := s.route r
    0x08 ≤ f.code → y.gate ≠ .disabled → y.assembly = .assembling frame none → y.HasArmed .tag (.content f.code) →
    ∃ u, exec (.headerEvent p header) s = .next u.finish ∧ SameBut s u [.ports, .routes, .queue, .notices] ∧
      OnlyPort s u p ∧ OnlyRoute s u r ∧
      u.port p = (s.port p).headed (newReception (some f) .toRoute) (fun c => c) ∧
      u.queue = s.queue ++ [abortRecord r y frame .hold] ∧
      u.notices = s.notices.raiseAll ((s.port p).upNotices p
        ++ .holdFired r frame.number .tag .content :: abortNotices r y.gate .hold frame.number) ∧
      u.route r =
        { y with
          holdPoint := disarmed .tag (.content f.code)
          gate := y.gate.afterAbort .hold
          assembly := .skipping
          idleTimer := .stopped
          counters :=
            { y.counters.countAbort .hold with skippedPackets := bump y.counters.skippedPackets } }) ∧
  ∀ p s x header frame line, PacketEnds s p x header → 0x08 ≤ header.code →
    let r := routeOf p header.channel
    let y := s.route r
    y.assembly = .assembling frame (some line) → x.intact header = false ∨ x.long = true → y.HasArmed .tag .damage →
    ∃ u, exec (.endEvent p) s = .next u.finish ∧ SameBut s u [.ports, .routes, .pool, .queue, .notices] ∧
      OnlyPort s u p ∧ OnlyRoute s u r ∧
      u.port p =
        { s.port p with
          reception := none
          counters :=
            { (s.port p).counters with
              payloadErrors := if x.intact header then (s.port p).counters.payloadErrors
                else bump (s.port p).counters.payloadErrors } } ∧
      u.queue = s.queue ++ [abortRecord r y frame .hold] ∧
      u.pool = s.pool.freed line.segments 1 ∧
      u.notices = s.notices.raiseAll
        (.holdFired r frame.number .tag .damage :: abortNotices r y.gate .hold frame.number) ∧
      u.route r =
        { y.ended .hold with
          holdPoint := disarmed .tag .damage
          idleTimer := .running y.config.idleLimit }

/-- R46, R93, R94, R99 and R100: an armed FORCE hold point disarms and raises HOLD_FIRED, and an OPEN gate becomes
CLOSING; the packet then goes on as without it. On FRAME_NUMBER, after the truncation of an open frame (`e` is the route
then, and `pool` the pool), an admitted frame gives the gate that effect and a refused one leaves the gate as it was;
HOLD_FIRED stands before the truncation's FRAME_ABORTED. On CONTENT and DAMAGE the event goes on from the state with the
hold point disarmed and the gate moved. -/
def Obligations.ForceHoldPointClosesTheGate : Prop :=
  let fired (s : State) (r : Fin 64) (number : Nat) (condition : HoldCondition) : State :=
    (s.setRoute r
      { s.route r with holdPoint := disarmed .force condition, gate := (s.route r).gate.forced }).raise
      (.holdFired r number .force condition.name)
  (∀ p s x header mark, PacketEnds s p x header → header.code = 0x00 → x.openingMark header = some mark →
    let r := routeOf p header.channel
    let y := s.route r
    let e := y.ended .truncated
    let pool := s.pool.freed y.lineSegments y.linesInAssembly
    e.gate = .opened ∨ e.gate = .stepping → y.HasArmed .force (.frameNumber mark.number) →
    ∃ u, exec (.endEvent p) s = .next u.finish ∧ SameBut s u [.ports, .routes, .pool, .queue, .notices] ∧
      OnlyPort s u p ∧ OnlyRoute s u r ∧ u.port p = { s.port p with reception := none } ∧
      (pool.Admits e →
        u.pool = pool.admitted ∧
        u.notices = s.notices.raiseAll
          (.holdFired r mark.number .force .frameNumber :: y.endNotices r .truncated) ∧
        u.queue = s.queue ++ y.endRecords r .truncated ++
          [.of r y 0 (.opening y.config.mode mark.number mark.declaredLines mark.declaredBytes)] ∧
        u.route r =
          { e with
            holdPoint := disarmed .force (.frameNumber mark.number)
            gate := e.gate.forced
            assembly := .assembling (.fresh mark y.config.mode) none
            idleTimer := .running y.config.idleLimit
            refusalRun := false
            counters := { e.counters with framesAdmitted := bump e.counters.framesAdmitted } }) ∧
      (¬ pool.Admits e →
        u.pool = pool ∧
        u.notices = s.notices.raiseAll
          (.holdFired r mark.number .force .frameNumber :: y.endNotices r .truncated
            ++ if y.refusalRun then [] else [.frameRefused r mark.number]) ∧
        u.queue = s.queue ++ y.endRecords r .truncated ∧
        u.route r =
          { e with
            holdPoint := disarmed .force (.frameNumber mark.number)
            assembly := .skipping
            idleTimer := .running y.config.idleLimit
            refusalRun := true
            counters := { e.counters with refused := bump e.counters.refused } })) ∧
  (∀ p header s frame line, HeaderComes s p → (s.port p).state = .active → headerPasses header = true →
    let f := headerFields header
    let r := routeOf p f.channel
    0x08 ≤ f.code → (s.route r).gate ≠ .disabled → (s.route r).assembly = .assembling frame line →
    (s.route r).HasArmed .force (.content f.code) →
    exec (.headerEvent p header) s = exec (.headerEvent p header) (fired s r frame.number (.content f.code))) ∧
  ∀ p s x header frame line, PacketEnds s p x header → 0x08 ≤ header.code →
    let r := routeOf p header.channel
    (s.route r).assembly = .assembling frame (some line) → x.intact header = false ∨ x.long = true →
    (s.route r).HasArmed .force .damage →
    exec (.endEvent p) s = exec (.endEvent p) (fired s r frame.number .damage)

/-! ## The control port and the executor -/

/-- R145 to R148 and R151: in IDLE a good start character begins a record and starts the gap timer, any other
character moves NOISE. In IN_RECORD a good length character of 3 to 240, a body character and the first check character
are added at their position and restart the gap timer; the last check character ends the record, which is judged and
delivered to the local source. A broken character, or another length, discards the record and moves FRAMING; the gap
timer's end discards it and moves GAP_ABORT. (That the start character makes the kept length absent, and that position,
length and record so far stay when a record ends, is the model's choice, log entry 19.) -/
def Obligations.ControlPortCharactersAreFramed : Prop :=
  (∀ s, s.resetLine = .high → s.receiver.state = .idle →
    ∃ u, exec (.characterReceived 0x7E true) s = .next u.finish ∧ SameBut s u [.receiver] ∧
      u.receiver =
        { state := .inRecord, position := .length, length := none, record := [], gapTimer := .running 4 }) ∧
  (∀ s character stopBit, s.resetLine = .high → s.receiver.state = .idle → character ≠ 0x7E ∨ stopBit = false →
    ∃ u, exec (.characterReceived character stopBit) s = .next u.finish ∧ SameBut s u [.sourceLocal] ∧
      u.sourceLocal =
        { s.sourceLocal with
          counters := { s.sourceLocal.counters with noise := bump s.sourceLocal.counters.noise } }) ∧
  (∀ s character stopBit, s.resetLine = .high → s.receiver.state = .inRecord →
    stopBit = false ∨ (s.receiver.position = .length ∧ (character.toNat < 3 ∨ 240 < character.toNat)) →
    ∃ u, exec (.characterReceived character stopBit) s = .next u.finish ∧ SameBut s u [.receiver, .sourceLocal] ∧
      u.receiver = { s.receiver with state := .idle, gapTimer := .stopped } ∧
      u.sourceLocal =
        { s.sourceLocal with
          counters := { s.sourceLocal.counters with framing := bump s.sourceLocal.counters.framing } }) ∧
  (∀ s (character : Byte), s.resetLine = .high → s.receiver.state = .inRecord →
    let x := s.receiver
    let added (position : Position) (length : Option Nat) : Prop :=
      ∃ u, exec (.characterReceived character true) s = .next u.finish ∧ SameBut s u [.receiver] ∧
        u.receiver = { x with position, length, record := x.record ++ [character], gapTimer := .running 4 }
    (x.position = .length → 3 ≤ character.toNat → character.toNat ≤ 240 → added .body (some character.toNat)) ∧
    ∀ n, x.length = some n →
      (x.position = .body → added (if x.record.length = n then .check else .body) (some n)) ∧
      (x.position = .check → x.record.length ≠ n + 2 → added .check (some n)) ∧
      ∀ covered first, x.position = .check → covered.length = n + 1 → x.record = covered ++ [first] →
        JudgedAndDelivered s.sourceLocal covered [first, character] fun y =>
          ∃ u, exec (.characterReceived character true) s = .next u.finish ∧
            SameBut s u [.receiver, .sourceLocal] ∧
            u.receiver = { x with state := .idle, gapTimer := .stopped } ∧ u.sourceLocal = y) ∧
  ∀ s, s.resetLine = .high → s.receiver.gapTimer.isRunning = true →
    ∃ u, exec .gapAbort s = .next u.finish ∧ SameBut s u [.receiver, .sourceLocal] ∧
      u.receiver = { s.receiver with state := .idle, gapTimer := .stopped } ∧
      u.sourceLocal =
        { s.sourceLocal with
          counters := { s.sourceLocal.counters with gapAbort := bump s.sourceLocal.counters.gapAbort } }

/-- R144 to R148 and R151, with section 10.2: the characters of a COMMAND record, sent without a gap to an idle
receiver and an empty inbox, put the record into the local inbox with its sequence, code and arguments, whatever
they are; one GOOD_RECORDS is counted. Between the characters the part may start transmissions. -/
def Obligations.RecordSentIsRecordReceived : Prop :=
  ∀ (s : State) (sequence code : Byte) (arguments : List Byte), s.resetLine = .high → s.receiver.state = .idle →
    s.sourceLocal.inbox = none → (∀ reply, s.sourceLocal.cache = some reply → reply.sequence ≠ sequence) →
    arguments.length ≤ 237 →
    let characters := portRecord (0x01 :: sequence :: code :: arguments)
    ∃ t : State, Host.Core.run Sys2Proof.core characters.length
        { s with pending := characters.map (.characterReceived · true) ++ s.pending } = .next t ∧
      SameBut s t [.receiver, .sourceLocal, .transmitter, .sender, .trunkCounters] ∧
      t.receiver.state = .idle ∧ t.receiver.gapTimer = .stopped ∧
      t.sourceLocal =
        { s.sourceLocal with
          inbox := some { sequence, code, arguments }
          counters :=
            { s.sourceLocal.counters with goodRecords := bump s.sourceLocal.counters.goodRecords } }

/-- R156 and R172: when a transmission on CP_TXD completes the port is free; a reply has left the local output slot,
and a notice is marked SENT. (A reply whose source has a part reset pending is PartResetsAreTaken's.) -/
def Obligations.ControlPortCompletionFreesThePort : Prop :=
  (∀ s straps, s.resetLine = .high → s.transmitter.sending = .reply →
    (∀ pending, s.resetPending = some pending → pending.source ≠ .localSource) →
    ∃ u, exec (.controlPortCompletion straps) s = .next u.finish ∧ SameBut s u [.transmitter, .sourceLocal] ∧
      u.transmitter = { sending := .nothing, wire := [] } ∧ u.sourceLocal = { s.sourceLocal with slot := none }) ∧
  ∀ s straps sequence, s.resetLine = .high → s.transmitter.sending = .notice sequence →
    ∃ u, exec (.controlPortCompletion straps) s = .next u.finish ∧ SameBut s u [.transmitter, .notices] ∧
      u.transmitter = { sending := .nothing, wire := [] } ∧
      u.notices =
        { s.notices with
          held := s.notices.held.map fun n => if n.sequence = sequence then { n with sent := true } else n }

/-- R149, R151 and R185: a remote command record in LOCKED is checked in order: its length (and the record's size, a
record of fewer than three bytes after its kind being of the wrong size) first, which moves FRAMING; its check, which
moves BAD_CHECK; then its type, which moves FRAMING; a good one moves GOOD_RECORDS and is delivered. At a full inbox it
is discarded; one whose sequence is the cached reply's is answered from the cache when the output slot is empty and
discarded when it is not; any other goes into the inbox. -/
def Obligations.RemoteRecordIsCheckedAndDelivered : Prop :=
  ∀ s, s.resetLine = .high → s.link.state = .locked →
    let x := s.sourceRemote
    let becomes (rest : List Byte) (y : SourceState) : Prop :=
      ∃ u, exec (.remoteCommandRecord rest) s = .next u.finish ∧ SameBut s u [.sourceRemote] ∧ u.sourceRemote = y
    let framing := { x with counters := { x.counters with framing := bump x.counters.framing } }
    (∀ rest : List Byte, rest.length < 3 → becomes rest framing) ∧
    ∀ length body lo hi,
      (body.length ≠ length.toNat ∨ length.toNat < 3 ∨ 240 < length.toNat →
        becomes (length :: body ++ [lo, hi]) framing) ∧
      (body.length = length.toNat → 3 ≤ length.toNat → length.toNat ≤ 240 →
        JudgedAndDelivered x (length :: body) [lo, hi] (becomes (length :: body ++ [lo, hi])))

/-- R88, R154 and R155: a code that names no command is answered UNKNOWN_COMMAND; a command marked lease from a source
that does not hold the lease is answered NO_LEASE before anything else is looked at, HOLD, RELEASE and STEP with their
results when the arguments are exactly one route number; and then a wrong argument length is answered BAD_LENGTH, and a
route number above 63 of HOLD, RELEASE or STEP BAD_ARG. Nothing else changes. -/
def Obligations.CommonChecksComeFirst : Prop :=
  (∀ s src record, Serves s src record record.code → record.code ∉ commandCodes →
    Refuses .unknownCommand s src record .unknownCommand []) ∧
  (∀ i code s src record, (i, code) ∈ leaseCommands → Serves s src record code → s.lease.holder ≠ some src →
    Refuses i s src record .noLease []) ∧
  (∀ i code s src record r, (i, code) ∈ gateCommands → Serves s src record code → s.lease.holder ≠ some src →
    record.arguments = [byte r] → (h : r < 64) →
    Refuses i s src record .noLease (gateResults ⟨r, h⟩ (s.route ⟨r, h⟩) (s.route ⟨r, h⟩))) ∧
  (∀ i code s src record, (i, code) ∈ gateCommands → Serves s src record code → s.lease.holder ≠ some src →
    (∀ r : Fin 64, record.arguments ≠ [byte r.val]) → Refuses i s src record .noLease []) ∧
  (∀ i code n s src record, (i, code, n) ∈ openCommands → Serves s src record code → record.arguments.length ≠ n →
    Refuses i s src record .badLength []) ∧
  (∀ i code n s src record, (i, code, n) ∈ fixedLeaseCommands → Serves s src record code →
    s.lease.holder = some src → record.arguments.length ≠ n → Refuses i s src record .badLength []) ∧
  ∀ i code s src record, (i, code) ∈ gateCommands → Serves s src record code → s.lease.holder = some src →
    routeOutOfRange record.arguments → Refuses i s src record .badArg []

/-- R36, R84, R140 and R161 with section 10.3: IDENTIFY, TABLE_SCAN, POOL_STATUS with KEEP and TRUNK_STATUS answer OK
with what they report, and change nothing else. (IDENTIFY's detail bytes are 0 for a cause other than COMMAND: the
model's choice, log entry 13.) -/
def Obligations.PartReadsReport : Prop :=
  ∀ s src record,
    (Serves s src record 0x01 → record.arguments = [] →
      exec .identify s = .next ((s.takeRecord src).answered src record .ok
        ([0x16, 0x04, 0x01] ++ word16 s.link.epoch ++ [holderCode s.lease.holder] ++ word16 s.lease.time
          ++ [s.rate.code, flagByte s.link.autoTrain, s.resetCause.code] ++ s.resetCause.detailBytes))) ∧
    (Serves s src record 0x24 → record.arguments = [] →
      ∃ routes : List (Fin 64), routes.Pairwise (· < ·) ∧ (∀ r, r ∈ routes ↔ (s.route r).gate ≠ .disabled) ∧
        exec .tableScan s = .next ((s.takeRecord src).answered src record .ok
          (byte routes.length ::
            routes.flatMap fun r => [byte r.val, byte (s.route r).config.trunkChannel, (s.route r).gate.code]))) ∧
    (Serves s src record 0x30 → record.arguments = [0] →
      exec .poolStatus s = .next ((s.takeRecord src).answered src record .ok
        (word16 s.pool.freeSegments ++ ((List.finRange 64).flatMap fun r => word16 (s.route r).heldSegments)
          ++ word16 s.pool.freeDescriptors
          ++ [byte (s.sumRoutes Route.linesInAssembly), byte (s.sumRoutes Route.reservations)]
          ++ word16 s.queue.length ++ word16 s.pool.segmentLowMark ++ word16 s.pool.descriptorLowMark))) ∧
    (Serves s src record 0x40 → record.arguments = [] →
      exec .trunkStatus s = .next ((s.takeRecord src).answered src record .ok
        (s.link.state.code :: word16 s.link.epoch ++ [flagByte s.link.autoTrain, flagByte s.link.reverseAligned]
          ++ word16 s.sender.credits ++ word16 s.queue.length
          ++ (match s.sender.inFlight with
              | .nothing => [0, 0, 0]
              | .stream => [1, 0, 0]
              | .reply => [2, 0, 0]
              | .notice sequence => 3 :: word16 sequence)
          ++ [flagByte s.sender.headInterrupted, flagByte s.sourceRemote.slot.isSome, flagByte s.sender.stalled])))

/-- R16, R27, R179 and R180 with section 10.3: PORT_STATUS, ROUTE_READ and COUNTERS_READ with KEEP answer OK with what
they report of the port, the route or the counter set, and change nothing else. A port or route number out of range
is BAD_ARG. (The zeros of PORT_STATUS's absent fields are the model's reading, log entry 16; the zero value of a DAMAGE
hold point is its choice, log entry 18.) -/
def Obligations.EntryReadsReport : Prop :=
  ∀ s src record,
    (∀ p : Fin 4, Serves s src record 0x11 → record.arguments = [byte p.val] →
      let x := s.port p
      exec .portStatus s = .next ((s.takeRecord src).answered src record .ok
        ([x.state.code, byte x.lanes.count, flagByte x.aligned]
          ++ (match x.reception with
              | none => List.replicate 9 0
              | some y =>
                [1, y.disposition.code]
                  ++ (match y.header with
                      | some h => [byte h.channel.val, byte h.code] ++ word16 h.length
                      | none => [0, 0, 0, 0])
                  ++ word16 y.received ++ [flagByte y.long])
          ++ [byte ((List.finRange 16).countP fun c => (s.route (routeOf p c)).isAssembling)]))) ∧
    (∀ r : Fin 64, Serves s src record 0x20 → record.arguments = [byte r.val] →
      let x := s.route r
      exec .routeRead s = .next ((s.takeRecord src).answered src record .ok
        (x.config.block
          ++ (match x.holdPoint with
              | some h => [1, h.kind.code, h.condition.name.code] ++ word16 h.condition.value ++ [flagByte h.armed]
              | none => List.replicate 6 0)
          ++ [x.gate.code, x.assembly.code] ++ word16 x.heldSegments ++ [flagByte x.refusalRun]
          ++ (match x.assembly with
              | .assembling _ (some line) => [1, byte line.code, byte line.segments]
              | _ => List.replicate 3 0)
          ++ (match x.assembly with
              | .assembling frame _ =>
                1 :: word16 frame.number ++ word16 frame.declaredLines ++ word16 frame.declaredBytes
                  ++ word16 frame.received ++ word16 frame.forwarded ++ [frame.flags]
                  ++ (match frame.sealValue with
                      | some v => 1 :: word32 v.toNat
                      | none => List.replicate 5 0)
              | _ => List.replicate 17 0)))) ∧
    (∀ set, Serves s src record 0x60 → record.arguments = set.bytes ++ [0] ∧ set ≠ .trunk ∨
        record.arguments = [2, 0] ∧ set = .trunk →
      exec .countersRead s = .next ((s.takeRecord src).answered src record .ok
        (set.bytes ++ [0] ++ (s.counterSet set).flatMap word32))) ∧
    (∀ n, 4 ≤ n → n < 256 → Serves s src record 0x11 → record.arguments = [byte n] →
      Refuses .portStatus s src record .badArg []) ∧
    ∀ n, 64 ≤ n → n < 256 → Serves s src record 0x20 → record.arguments = [byte n] →
      Refuses .routeRead s src record .badArg []

/-- R158 and R159: CLAIM from the holder, or under no holder, gives the source the lease, and from another source is
LEASE_HELD; DROP from the holder ends it, and from another source is WRONG_STATE; LEASE_TIME from the holder sets the
lease time, from 100 to 60,000. The refusals come in the order of the rules, and the replies of CLAIM and DROP carry
the holder whatever the status, BAD_LENGTH among them (the model's reading, log entry 12). The lease timer's restart at
the end of an execution is ReplyIsPlacedAndCached's. -/
def Obligations.LeaseIsClaimedDroppedAndTimed : Prop :=
  (∀ s src record,
    (Serves s src record 0x02 → record.arguments = [] → s.lease.holder = none ∨ s.lease.holder = some src →
      ∃ b, exec .claim s = .next (b.answered src record .ok (src.code :: word16 s.lease.time)) ∧
        SameBut (s.takeRecord src) b [.lease] ∧
        b.lease = { s.lease with holder := some src, timer := .running s.lease.time }) ∧
    (∀ other, Serves s src record 0x02 → record.arguments = [] → s.lease.holder = some other → other ≠ src →
      Refuses .claim s src record .leaseHeld (other.code :: word16 s.lease.time)) ∧
    (Serves s src record 0x03 → record.arguments = [] → s.lease.holder = some src →
      ∃ b, exec .drop s = .next (b.answered src record .ok [0]) ∧ SameBut (s.takeRecord src) b [.lease] ∧
        b.lease = { s.lease with holder := none, timer := .stopped }) ∧
    (Serves s src record 0x03 → record.arguments = [] → s.lease.holder ≠ some src →
      Refuses .drop s src record .wrongState [holderCode s.lease.holder]) ∧
    (∀ time, Serves s src record 0x04 → record.arguments = word16 time → s.lease.holder = some src →
      100 ≤ time → time ≤ 60000 →
      ∃ b, exec .leaseTime s = .next (b.answered src record .ok (word16 time)) ∧
        SameBut (s.takeRecord src) b [.lease] ∧ b.lease = { s.lease with time }) ∧
    (Serves s src record 0x02 → record.arguments ≠ [] →
      Refuses .claim s src record .badLength (holderCode s.lease.holder :: word16 s.lease.time)) ∧
    (Serves s src record 0x03 → record.arguments ≠ [] →
      Refuses .drop s src record .badLength [holderCode s.lease.holder])) ∧
  LeaseChecks .leaseTime 0x04 2 fun arguments =>
    ∃ time, arguments = word16 time ∧ (time < 100 ∨ (60000 < time ∧ time < 65536))

/-- R162: RESET_PART from the holder makes a part reset pending for its source, with the grace timer running, and
answers the epoch in force and the next one. A source without the lease, and then any argument, is refused. -/
def Obligations.ResetPartBecomesPending : Prop :=
  LeaseChecks .resetPart 0x05 0 (fun _ => False) ∧
  ∀ s src record, Serves s src record 0x05 → record.arguments = [] → s.lease.holder = some src →
    ∃ b, exec .resetPart s = .next (b.answered src record .ok
        (word16 s.link.epoch ++ word16 (if s.link.epoch = 65535 then 1 else s.link.epoch + 1))) ∧
      SameBut (s.takeRecord src) b [.resetPending] ∧
      b.resetPending = some { source := src, grace := .running 10 }

/-- R15 with R3 and R8: PORT_SET gives an OFF port its lanes and, with ENABLE, makes it SEEKING; at a port that is not
OFF another lane count is WRONG_STATE, ENABLE changes nothing, and DISABLE cuts the packet, ends the frames of the
sixteen routes with reason PORT_OFF and makes the port OFF. NO_LEASE, BAD_LENGTH and BAD_ARG come first. -/
def Obligations.PortSetEnablesAndDisables : Prop :=
  (LeaseChecks .portSet 0x10 3 fun arguments => ∃ p e l : Byte, arguments = [p, e, l] ∧
    (3 < p.toNat ∨ (e ≠ 0 ∧ e ≠ 1) ∨ (l ≠ 1 ∧ l ≠ 2 ∧ l ≠ 4))) ∧
  ∀ s src record (p : Fin 4) (enable : Bool) (lanes : Lanes), Serves s src record 0x10 → s.lease.holder = some src →
    record.arguments = [byte p.val, flagByte enable, byte lanes.count] →
    let x := s.port p
    (x.state = .off →
      ∃ b, exec .portSet s = .next (b.answered src record .ok [flagByte enable, byte lanes.count]) ∧
        SameBut (s.takeRecord src) b [.ports] ∧ OnlyPort s b p ∧
        b.port p =
          if enable then { x with state := .seeking, lanes, aligned := false, reception := none }
          else { x with lanes }) ∧
    (x.state ≠ .off → lanes ≠ x.lanes → Refuses .portSet s src record .wrongState []) ∧
    (x.state ≠ .off → lanes = x.lanes → enable = true →
      exec .portSet s =
        .next ((s.takeRecord src).answered src record .ok [x.state.code, byte x.lanes.count])) ∧
    (x.state ≠ .off → lanes = x.lanes → enable = false →
      ∃ b, exec .portSet s = .next (b.answered src record .ok [0, byte x.lanes.count]) ∧
        SameBut (s.takeRecord src) b [.ports, .routes, .pool, .queue, .notices] ∧ OnlyPort s b p ∧
        b.port p =
          { x with
            state := .off
            aligned := false
            reception := none
            counters :=
              { x.counters with
                cutPackets := if x.reception = none then x.counters.cutPackets
                  else bump x.counters.cutPackets } } ∧
        PortVisited s b p .portOff [])

/-- R28, R29 and R30 with R25 and R26: ROUTE_WRITE from the lease holder, for a route whose gate is DISABLED or SHUT,
with at least one field named and every value in range, writes the resulting entry when its cap covers the held
segments, it keeps the sealed rule and, for a SHUT route whose trunk channel would change, no other route in service
holds that channel. The reply carries the route, the gate and the whole configuration. -/
def Obligations.RouteWriteWrites : Prop :=
  ∀ s src record (r : Fin 64) edit config, Serves s src record 0x21 → s.lease.holder = some src →
    edit.Spellable → edit.selection ≠ 0 → record.arguments = byte r.val :: edit.selection :: edit.values →
    let x := s.route r
    x.config.edited edit = some config → x.gate = .disabled ∨ x.gate = .shut → x.heldSegments ≤ config.cap →
    config.KeepsSealedRule r →
    (x.gate = .shut → config.trunkChannel ≠ x.config.trunkChannel →
      ∀ k, k ≠ r → (s.route k).gate ≠ .disabled → (s.route k).config.trunkChannel ≠ config.trunkChannel) →
    ∃ b, exec .routeWrite s = .next (b.answered src record .ok ([byte r.val, x.gate.code] ++ config.block)) ∧
      SameBut (s.takeRecord src) b [.routes] ∧ OnlyRoute s b r ∧ b.route r = { x with config }

/-- R29: the seven checks of ROUTE_WRITE in order. No lease is NO_LEASE; a selection that names no field is BAD_ARG,
and any other whose values the arguments do not spell is BAD_LENGTH; a route number above 63 or a value out of range is
BAD_ARG; a gate that is neither DISABLED nor SHUT, and a cap below the held segments, are WRONG_STATE; a breach of the
sealed rule is SEALED_RULE with the condition it breaks first; a trunk channel that another route in service holds is
CLASH with the lowest such route. (What a WRONG_STATE reply carries is the model's reading, log entry 14.) -/
def Obligations.RouteWriteIsRefusedInOrder : Prop :=
  (∀ s src record, Serves s src record 0x21 →
    (s.lease.holder ≠ some src → Refuses .routeWrite s src record .noLease []) ∧
    (s.lease.holder = some src →
      (record.arguments.length < 2 → Refuses .routeWrite s src record .badLength []) ∧
      ∀ r selection values, record.arguments = r :: selection :: values →
        (selection = 0 → Refuses .routeWrite s src record .badArg []) ∧
        (selection ≠ 0 →
          (∀ edit : RouteEdit, edit.Spellable → edit.selection = selection → edit.values ≠ values) →
          Refuses .routeWrite s src record .badLength []) ∧
        ∀ edit : RouteEdit, edit.Spellable → edit.selection = selection → edit.values = values → selection ≠ 0 →
          63 < r.toNat → Refuses .routeWrite s src record .badArg [])) ∧
  ∀ s src record (r : Fin 64) edit, Serves s src record 0x21 → s.lease.holder = some src →
    edit.Spellable → edit.selection ≠ 0 → record.arguments = byte r.val :: edit.selection :: edit.values →
    let x := s.route r
    (x.config.edited edit = none → Refuses .routeWrite s src record .badArg []) ∧
    ∀ config, x.config.edited edit = some config →
      (x.gate ≠ .disabled → x.gate ≠ .shut →
        Refuses .routeWrite s src record .wrongState [byte r.val, x.gate.code]) ∧
      (x.gate = .disabled ∨ x.gate = .shut →
        (config.cap < x.heldSegments →
          Refuses .routeWrite s src record .wrongState ([byte r.val, x.gate.code] ++ word16 x.heldSegments)) ∧
        (x.heldSegments ≤ config.cap →
          (¬ config.KeepsSealedRule r →
            Refuses .routeWrite s src record .sealedRule
              [byte r.val, x.gate.code,
                if config.filter ≠ [] then 1 else if config.overrideCode ≠ none then 2 else 3]) ∧
          (config.KeepsSealedRule r → x.gate = .shut → config.trunkChannel ≠ x.config.trunkChannel →
            ∀ k, k ≠ r → (s.route k).gate ≠ .disabled → (s.route k).config.trunkChannel = config.trunkChannel →
              (∀ j, j < k → j ≠ r → (s.route j).gate ≠ .disabled →
                (s.route j).config.trunkChannel ≠ config.trunkChannel) →
              Refuses .routeWrite s src record .clash [byte r.val, x.gate.code, byte k.val])))

/-- R28 and section 10.3: the argument bytes of a ROUTE_WRITE read back as the edit they spell, every field and every
value; no other bytes do. -/
def Obligations.RouteEditReadsBack : Prop :=
  (∀ edit : RouteEdit, edit.Spellable → readEdit edit.selection edit.values = some edit) ∧
  ∀ selection values edit, readEdit selection values = some edit →
    edit.Spellable ∧ edit.selection = selection ∧ edit.values = values

/-- R25, R28 and R29 check 3 with R19: a write gives each field it names its value, keeps the others, and is in range
when every named value is in the field's range and the resulting floor is at most the resulting cap. -/
def Obligations.RouteEditKeepsOtherFields : Prop :=
  ∀ (config : RouteConfig) (edit : RouteEdit) (result : RouteConfig), config.edited edit = some result ↔
    (match edit.trunkChannel with
      | none => result.trunkChannel = config.trunkChannel
      | some b => b.toNat ≤ 63 ∧ result.trunkChannel = b.toNat) ∧
    (match edit.mode with
      | none => result.mode = config.mode
      | some b => result.mode.code = b) ∧
    (match edit.filter with
      | none => result.filter = config.filter
      | some codes => result.filter = codes.map BitVec.toNat ∧ result.filter.Nodup ∧
          ∀ code ∈ result.filter, 0x08 ≤ code ∧ code ≤ 0x3F) ∧
    (match edit.overrideCode with
      | none => result.overrideCode = config.overrideCode
      | some b => (b = 0 ∧ result.overrideCode = none) ∨
          (0x10 ≤ b.toNat ∧ b.toNat ≤ 0x3F ∧ result.overrideCode = some b.toNat)) ∧
    (match edit.policy with
      | none => result.policy = config.policy
      | some b => result.policy.code = b) ∧
    (match edit.cap with
      | none => result.cap = config.cap
      | some n => 16 ≤ n ∧ n ≤ 2048 ∧ result.cap = n) ∧
    (match edit.floor with
      | none => result.floor = config.floor
      | some n => result.floor = n) ∧
    (match edit.idleLimit with
      | none => result.idleLimit = config.idleLimit
      | some n => 1 ≤ n ∧ n ≤ 1000 ∧ result.idleLimit = n) ∧
    result.floor ≤ result.cap

/-- R31 and R32 with R26: ROUTE_ENABLE from the lease holder opens a DISABLED route whose trunk channel no other route
in service holds; it is CLASH with the lowest route that holds it, and WRONG_STATE at a route in service. NO_LEASE,
BAD_LENGTH and BAD_ARG come first. -/
def Obligations.RouteEnableOpensTheGate : Prop :=
  LeaseChecks .routeEnable 0x22 1 routeOutOfRange ∧
  ∀ s src record (r : Fin 64), Serves s src record 0x22 → s.lease.holder = some src →
    record.arguments = [byte r.val] →
    let x := s.route r
    (x.gate = .disabled →
      (∀ k, k ≠ r → (s.route k).gate ≠ .disabled → (s.route k).config.trunkChannel ≠ x.config.trunkChannel) →
      ∃ b, exec .routeEnable s = .next (b.answered src record .ok [byte r.val, byte x.config.trunkChannel, 1]) ∧
        SameBut (s.takeRecord src) b [.routes] ∧ OnlyRoute s b r ∧ b.route r = { x with gate := .opened }) ∧
    (∀ k, x.gate = .disabled → k ≠ r → (s.route k).gate ≠ .disabled →
      (s.route k).config.trunkChannel = x.config.trunkChannel →
      (∀ j, j < k → j ≠ r → (s.route j).gate ≠ .disabled →
        (s.route j).config.trunkChannel ≠ x.config.trunkChannel) →
      Refuses .routeEnable s src record .clash [byte k.val]) ∧
    (x.gate ≠ .disabled → Refuses .routeEnable s src record .wrongState [x.gate.code])

/-- R33, R34 and R14: ROUTE_DISABLE from the lease holder ends the route's frame with reason DISABLED, stops its
timer, clears its refusal-run flag and makes its gate DISABLED; a packet of the route in reception becomes UNROUTED. At
a DISABLED route it changes nothing. The reply carries the gate and the assembly state before, and the open frame's
number and lines forwarded. NO_LEASE, BAD_LENGTH and BAD_ARG come first. -/
def Obligations.RouteDisableTakesOutOfService : Prop :=
  LeaseChecks .routeDisable 0x23 1 routeOutOfRange ∧
  ∀ s src record (r : Fin 64), Serves s src record 0x23 → s.lease.holder = some src →
    record.arguments = [byte r.val] →
    let x := s.route r
    let p := portOf r
    let results := [byte r.val, x.gate.code, x.assembly.code]
      ++ (match x.assembly with
          | .assembling frame _ => 1 :: word16 frame.number ++ word16 frame.forwarded
          | _ => List.replicate 5 0)
    (x.gate = .disabled →
      exec .routeDisable s = .next ((s.takeRecord src).answered src record .ok results)) ∧
    (x.gate ≠ .disabled →
      ∃ b, exec .routeDisable s = .next (b.answered src record .ok results) ∧
        SameBut (s.takeRecord src) b [.ports, .routes, .pool, .queue, .notices] ∧ OnlyPort s b p ∧ OnlyRoute s b r ∧
        b.route r =
          { x.ended .disabled with gate := .disabled, refusalRun := false, idleTimer := .stopped } ∧
        b.queue = s.queue ++ x.endRecords r .disabled ∧
        b.pool = s.pool.freed x.lineSegments x.linesInAssembly ∧
        b.notices = s.notices.raiseAll (x.endNotices r .disabled) ∧
        (b.port p).reception =
          (s.port p).reception.map (fun y =>
            if y.disposition = .toRoute ∧ y.header.any (·.channel == channelOf r) = true
              then { y with disposition := .unrouted, disabledMeanwhile := true } else y) ∧
        { b.port p with reception := none } = { s.port p with reception := none })

/-- R88 to R91 with R93: HOLD makes CLOSING of OPEN and STEPPING under an open frame, and SHUT with ROUTE_SHUT reason
HOLD and no frame without one, and leaves CLOSING and SHUT; RELEASE opens every gate in service; STEP makes STEPPING of
SHUT. HOLD and RELEASE at DISABLED, and STEP at any other gate, are WRONG_STATE. The reply carries the route, the gate
before and after, the assembly state and the open frame's number. -/
def Obligations.HoldReleaseAndStepMoveTheGate : Prop :=
  ∀ s src record (r : Fin 64), s.lease.holder = some src → record.arguments = [byte r.val] →
    let x := s.route r
    let results (after : Gate) : List Byte :=
      [byte r.val, x.gate.code, after.code, x.assembly.code]
        ++ (match x.assembly with
            | .assembling frame _ => 1 :: word16 frame.number
            | _ => [0, 0, 0])
    (Serves s src record 0x28 → x.gate = .opened ∨ x.gate = .stepping → x.isAssembling = true →
      ∃ b, exec .hold s = .next (b.answered src record .ok (results .closing)) ∧
        SameBut (s.takeRecord src) b [.routes] ∧ OnlyRoute s b r ∧ b.route r = { x with gate := .closing }) ∧
    (Serves s src record 0x28 → x.gate = .opened ∨ x.gate = .stepping → x.isAssembling = false →
      ∃ b, exec .hold s = .next (b.answered src record .ok (results .shut)) ∧
        SameBut (s.takeRecord src) b [.routes, .notices] ∧ OnlyRoute s b r ∧
        b.route r = { x with gate := .shut } ∧ b.notices = s.notices.raise (.routeShut r .hold none)) ∧
    (Serves s src record 0x28 → x.gate = .closing ∨ x.gate = .shut →
      exec .hold s = .next ((s.takeRecord src).answered src record .ok (results x.gate))) ∧
    (Serves s src record 0x29 → x.gate ≠ .disabled →
      ∃ b, exec .release s = .next (b.answered src record .ok (results .opened)) ∧
        SameBut (s.takeRecord src) b [.routes] ∧ OnlyRoute s b r ∧ b.route r = { x with gate := .opened }) ∧
    (Serves s src record 0x2A → x.gate = .shut →
      ∃ b, exec .step s = .next (b.answered src record .ok (results .stepping)) ∧
        SameBut (s.takeRecord src) b [.routes] ∧ OnlyRoute s b r ∧ b.route r = { x with gate := .stepping }) ∧
    (Serves s src record 0x28 → x.gate = .disabled →
      Refuses .hold s src record .wrongState (results .disabled)) ∧
    (Serves s src record 0x29 → x.gate = .disabled →
      Refuses .release s src record .wrongState (results .disabled)) ∧
    (Serves s src record 0x2A → x.gate ≠ .shut → Refuses .step s src record .wrongState (results x.gate))

/-- R96 and R97: HOLDPOINT_SET from the lease holder gives the route the hold point its arguments name, armed, and
HOLDPOINT_CLEAR takes it away, in every gate state; the reply carries the hold point before. NO_LEASE comes first, then
BAD_LENGTH for another length than the condition calls for, then BAD_ARG for a value out of range; a condition naming
nothing is BAD_ARG whatever the length. (The zero value of a DAMAGE hold point in the replies is the model's choice, log
entry 18.) -/
def Obligations.HoldPointIsSetAndCleared : Prop :=
  LeaseChecks .holdpointClear 0x2C 1 routeOutOfRange ∧
  (∀ s src record, Serves s src record 0x2B →
    (s.lease.holder ≠ some src → Refuses .holdpointSet s src record .noLease []) ∧
    (s.lease.holder = some src →
      (record.arguments.length < 3 → Refuses .holdpointSet s src record .badLength []) ∧
      ∀ (r kind condition : Byte) value, record.arguments = r :: kind :: condition :: value →
        let length := if condition = 0 then 2 else if condition = 1 then 1 else 0
        (condition.toNat ≤ 2 → value.length ≠ length → Refuses .holdpointSet s src record .badLength []) ∧
        (2 < condition.toNat → Refuses .holdpointSet s src record .badArg []) ∧
        (condition.toNat ≤ 2 → value.length = length →
          63 < r.toNat ∨ 1 < kind.toNat ∨
            (condition = 1 ∧ ∃ code : Byte, value = [code] ∧ (code.toNat < 0x08 ∨ 0x3F < code.toNat)) →
          Refuses .holdpointSet s src record .badArg []))) ∧
  ∀ s src record (r : Fin 64), s.lease.holder = some src →
    let x := s.route r
    let before : List Byte :=
      match x.holdPoint with
      | some h => [1, h.kind.code, h.condition.name.code] ++ word16 h.condition.value ++ [flagByte h.armed]
      | none => List.replicate 6 0
    (∀ (kind : HoldKind) condition, Serves s src record 0x2B →
      record.arguments = [byte r.val, kind.code, condition.name.code]
        ++ (match condition with
            | .frameNumber number => word16 number
            | .content code => [byte code]
            | .damage => []) →
      (∀ number, condition = .frameNumber number → number < 65536) →
      (∀ code, condition = .content code → 0x08 ≤ code ∧ code ≤ 0x3F) →
      ∃ b, exec .holdpointSet s = .next (b.answered src record .ok
          ([byte r.val, kind.code, condition.name.code] ++ word16 condition.value ++ [1] ++ before)) ∧
        SameBut (s.takeRecord src) b [.routes] ∧ OnlyRoute s b r ∧
        b.route r = { x with holdPoint := some { kind, condition, armed := true } }) ∧
    (Serves s src record 0x2C → record.arguments = [byte r.val] →
      ∃ b, exec .holdpointClear s = .next (b.answered src record .ok (byte r.val :: before)) ∧
        SameBut (s.takeRecord src) b [.routes] ∧ OnlyRoute s b r ∧ b.route r = { x with holdPoint := none })

/-- R84 and R179: POOL_STATUS with SET_MARKS, from the lease holder, sets both low marks to the free counts, and
COUNTERS_READ with CLEAR, from the lease holder, makes every counter of the set 0, each after its report; without the
lease both are NO_LEASE. The refusals of COUNTERS_READ come in the order of R179, and a scope above 3 is BAD_ARG
whatever the length; a choice of POOL_STATUS other than 0 and 1 is BAD_ARG. -/
def Obligations.MarksAndCountersAreSet : Prop :=
  ∀ s src record,
    (Serves s src record 0x30 → record.arguments = [1] → s.lease.holder = some src →
      ∃ b results, exec .poolStatus s = .next (b.answered src record .ok results) ∧ results = s.poolReport ∧
        SameBut (s.takeRecord src) b [.pool] ∧
        b.pool =
          { s.pool with
            segmentLowMark := s.pool.freeSegments
            descriptorLowMark := s.pool.freeDescriptors }) ∧
    (∀ set : CounterScope, Serves s src record 0x60 →
      record.arguments = set.bytes ++ [1] ∧ set ≠ .trunk ∨ record.arguments = [2, 1] ∧ set = .trunk →
      s.lease.holder = some src →
      ∃ b, exec .countersRead s = .next (b.answered src record .ok
          (set.bytes ++ [1] ++ (s.counterSet set).flatMap word32)) ∧
        (∀ c ∈ b.counterSet set, c = 0) ∧ (∀ other, other ≠ set → b.counterSet other = s.counterSet other) ∧
        b = (s.takeRecord src).clearSet set) ∧
    (Serves s src record 0x30 → record.arguments = [1] → s.lease.holder ≠ some src →
      Refuses .poolStatus s src record .noLease []) ∧
    (∀ set : CounterScope, Serves s src record 0x60 →
      record.arguments = set.bytes ++ [1] ∧ set ≠ .trunk ∨ record.arguments = [2, 1] ∧ set = .trunk →
      s.lease.holder ≠ some src → Refuses .countersRead s src record .noLease []) ∧
    (∀ choice : Byte, Serves s src record 0x30 → record.arguments = [choice] → choice ≠ 0 → choice ≠ 1 →
      Refuses .poolStatus s src record .badArg []) ∧
    (Serves s src record 0x60 → record.arguments = [] → Refuses .countersRead s src record .badLength []) ∧
    ∀ (scope : Byte) rest, Serves s src record 0x60 → record.arguments = scope :: rest →
      let length := if scope = 2 then 1 else 2
      (3 < scope.toNat → Refuses .countersRead s src record .badArg []) ∧
      (scope.toNat ≤ 3 → rest.length ≠ length → Refuses .countersRead s src record .badLength []) ∧
      (∀ choice, scope = 2 → rest = [choice] → choice ≠ 0 → choice ≠ 1 →
        Refuses .countersRead s src record .badArg []) ∧
      ∀ number choice : Byte, rest = [number, choice] →
        (scope = 0 ∧ 63 < number.toNat) ∨ (scope = 1 ∧ 3 < number.toNat) ∨ (scope = 3 ∧ number ≠ 1 ∧ number ≠ 2) ∨
          (scope.toNat ≤ 3 ∧ scope ≠ 2 ∧ choice ≠ 0 ∧ choice ≠ 1) →
        Refuses .countersRead s src record .badArg []

/-- R136, R137 and R138 with R115, R119 and R121: TRUNK_HALT halts the link in every state, drops the balance, the
stall and the transmission, and moves HALTS unless it was HALTED; TRUNK_START sends a HALTED link into TRAINING;
TRUNK_RETRAIN sends a LOCKED or DOWN one through it again. A halted link drives TRUNK_TX quiet, one that begins
training sends the pattern. A source without the lease, any argument, and then a link state that does not permit the
command, is refused. -/
def Obligations.TrunkCommandsMoveTheLink : Prop :=
  (∀ s src record, s.lease.holder = some src → record.arguments = [] →
    let dropped : Sender :=
      { credits := 0, inFlight := .nothing, stallTimer := .stopped, stalled := false, wire := [],
        headInterrupted := s.sender.headInterrupted || decide (s.sender.inFlight = .stream) }
    let training : Link :=
      { s.link with
        state := .training, reverseAligned := false, trainTimer := .running 20, retryTimer := .stopped }
    (Serves s src record 0x41 →
      ∃ b, exec .trunkHalt s = .next (b.answered src record .ok [s.link.state.code, 0]) ∧
        SameBut (s.takeRecord src) b [.sender, .link, .trunkCounters] ∧ b.sender = dropped ∧
        b.link =
          { s.link with
            state := .halted, reverseAligned := false, trainTimer := .stopped, retryTimer := .stopped } ∧
        b.trunkSignal = .quiet ∧
        b.trunkCounters =
          { s.trunkCounters with
            halts := if s.link.state = .halted then s.trunkCounters.halts else bump s.trunkCounters.halts }) ∧
    (Serves s src record 0x42 → s.link.state = .halted →
      ∃ b, exec .trunkStart s = .next (b.answered src record .ok [1]) ∧
        SameBut (s.takeRecord src) b [.link] ∧ b.link = training ∧ b.trunkSignal = .pattern) ∧
    (Serves s src record 0x42 → s.link.state ≠ .halted →
      Refuses .trunkStart s src record .wrongState [s.link.state.code]) ∧
    (Serves s src record 0x43 → s.link.state = .locked ∨ s.link.state = .down →
      ∃ b, exec .trunkRetrain s = .next (b.answered src record .ok [s.link.state.code, 1]) ∧
        SameBut (s.takeRecord src) b [.sender, .link, .trunkCounters] ∧ b.sender = dropped ∧ b.link = training ∧
        b.trunkSignal = .pattern ∧
        b.trunkCounters = { s.trunkCounters with retrains := bump s.trunkCounters.retrains }) ∧
    (Serves s src record 0x43 → s.link.state = .training ∨ s.link.state = .halted →
      Refuses .trunkRetrain s src record .wrongState [s.link.state.code])) ∧
  LeaseChecks .trunkHalt 0x41 0 (fun _ => False) ∧ LeaseChecks .trunkStart 0x42 0 (fun _ => False) ∧
  LeaseChecks .trunkRetrain 0x43 0 (fun _ => False)

/-- R173, R174 and R169: NOTICE_ACK of a held sequence takes away that notice and every one before it, and then, with
room and a lost count above 0, appends NOTICES_LOST with that count and makes it 0; any other sequence is BAD_ARG. The
reply carries the number taken away and the queue summary after. Arguments of another length are BAD_LENGTH. -/
def Obligations.NoticeAckTakesNoticesAway : Prop :=
  (∀ s src record, Serves s src record 0x50 → record.arguments.length ≠ 2 →
    Refuses .noticeAck s src record .badLength []) ∧
  ∀ s src record sequence, Serves s src record 0x50 → record.arguments = word16 sequence → sequence < 65536 →
    (∀ older n newer, s.notices.held = older ++ n :: newer → n.sequence = sequence →
      (∀ m ∈ older, m.sequence ≠ sequence) →
      ∃ b, exec .noticeAck s =
          .next (b.answered src record .ok (byte (older.length + 1) :: b.notices.summary)) ∧
        SameBut (s.takeRecord src) b [.notices] ∧
        (0 < s.notices.lost ∧ newer.length < 16 ∧ (s.notices.nextSequence = 1 → newer = []) →
          b.notices =
            { s.notices with
              held := newer ++
                [{ sequence := s.notices.nextSequence, info := .noticesLost s.notices.lost, sent := false }]
              nextSequence := if s.notices.nextSequence = 65535 then 1 else s.notices.nextSequence + 1
              lost := 0 }) ∧
        (¬(0 < s.notices.lost ∧ newer.length < 16 ∧ (s.notices.nextSequence = 1 → newer = [])) →
          b.notices = { s.notices with held := newer })) ∧
    ((∀ n ∈ s.notices.held, n.sequence ≠ sequence) →
      Refuses .noticeAck s src record .badArg s.notices.summary)

/-- R175, R176 and R177: NOTICE_REPLAY marks every held notice UNSENT and answers how many were SENT; NOTICE_MASK sets
the ten masks and answers the old ones; NOTICE_ROUTE sets the destination and answers the old one. Each answers the
queue summary after. The refusals come in the order of the rules: NO_LEASE for the two that need the lease, BAD_LENGTH,
BAD_ARG. -/
def Obligations.NoticeQueueIsCommanded : Prop :=
  (LeaseChecks .noticeMask 0x52 10 fun arguments => ∃ b ∈ arguments, b ≠ 0 ∧ b ≠ 1) ∧
  (LeaseChecks .noticeRoute 0x53 1 fun arguments => ∃ b, arguments = [b] ∧ b ≠ 1 ∧ b ≠ 2) ∧
  ∀ s src record,
    (Serves s src record 0x51 → record.arguments = [] →
      ∃ b, exec .noticeReplay s = .next (b.answered src record .ok
          (byte (s.notices.held.countP (·.sent)) :: b.notices.summary)) ∧
        SameBut (s.takeRecord src) b [.notices] ∧
        b.notices = { s.notices with held := s.notices.held.map fun n => { n with sent := false } }) ∧
    (∀ mask : KindMask, Serves s src record 0x52 → record.arguments = mask.bytes → s.lease.holder = some src →
      ∃ b, exec .noticeMask s =
          .next (b.answered src record .ok (s.notices.mask.bytes ++ b.notices.summary)) ∧
        SameBut (s.takeRecord src) b [.notices] ∧ b.notices = { s.notices with mask }) ∧
    (∀ destination : Source, Serves s src record 0x53 → record.arguments = [destination.code] →
      s.lease.holder = some src →
      ∃ b, exec .noticeRoute s =
          .next (b.answered src record .ok (s.notices.destination.code :: b.notices.summary)) ∧
        SameBut (s.takeRecord src) b [.notices] ∧ b.notices = { s.notices with destination }) ∧
    (Serves s src record 0x51 → record.arguments ≠ [] → Refuses .noticeReplay s src record .badLength []) ∧
    ∀ q : NoticeQueue, q.summary =
      byte q.held.length
        :: (match q.held.head?, q.held.getLast? with
            | some first, some last => 1 :: word16 first.sequence ++ word16 last.sequence
            | _, _ => List.replicate 5 0)
        ++ [byte (q.held.countP fun n => !n.sent)] ++ word16 q.nextSequence ++ word16 q.lost
        ++ [q.destination.code] ++ q.mask.bytes

/-! ## The trunk, the timers and part reset -/

/-- R118, R121 and R185: in LOCKED a grant of 3 bytes after its kind whose check matches and whose count is not 0 moves
GRANTS, raises the balance to at most 1,023, moving CREDIT_CLAMPED when it would go above, and ends a stall; any other
grant moves GRANT_ERRORS. -/
def Obligations.CreditGrantRaisesTheBalance : Prop :=
  ∀ s, s.resetLine = .high → s.link.state = .locked →
    (∀ count lo hi : Byte, checkBytes (recordCheck [0x30, count]) = [lo, hi] → count ≠ 0 →
      let sum := s.sender.credits + count.toNat
      ∃ u, exec (.creditGrant [count, lo, hi]) s = .next u.finish ∧ SameBut s u [.sender, .trunkCounters] ∧
        u.sender =
          { s.sender with
            credits := if 1023 < sum then 1023 else sum, stalled := false, stallTimer := .stopped } ∧
        u.trunkCounters =
          { s.trunkCounters with
            grants := bump s.trunkCounters.grants
            creditClamped := if 1023 < sum then bump s.trunkCounters.creditClamped
              else s.trunkCounters.creditClamped }) ∧
    (∀ rest : List Byte,
      (∀ count lo hi, rest = [count, lo, hi] → checkBytes (recordCheck [0x30, count]) ≠ [lo, hi] ∨ count = 0) →
      ∃ u, exec (.creditGrant rest) s = .next u.finish ∧ SameBut s u [.trunkCounters] ∧
        u.trunkCounters = { s.trunkCounters with grantErrors := bump s.trunkCounters.grantErrors })

/-- R130, R131 and R185: in TRAINING reverse alignment is seen and lost without touching the train timer; a good
acknowledgement of the part's epoch then locks the link, stops the train timer, moves LOCKS and raises TRUNK_LOCKED;
one that is not good, or carries another epoch, is discarded. -/
def Obligations.AcknowledgementLocksTheLink : Prop :=
  ∀ s, s.resetLine = .high → s.link.state = .training →
    (∃ u, exec .reverseAlignment s = .next u.finish ∧ SameBut s u [.link] ∧
      u.link = { s.link with reverseAligned := true }) ∧
    (∃ u, exec .signalLoss s = .next u.finish ∧ SameBut s u [.link] ∧
      u.link = { s.link with reverseAligned := false }) ∧
    (∀ e0 e1 lo hi : Byte, s.link.reverseAligned = true → checkBytes (recordCheck [0x32, e0, e1]) = [lo, hi] →
      read16 e0 e1 = s.link.epoch →
      ∃ u, exec (.acknowledgement [e0, e1, lo, hi]) s = .next u.finish ∧
        SameBut s u [.link, .trunkCounters, .notices] ∧
        u.link = { s.link with state := .locked, trainTimer := .stopped } ∧
        u.trunkCounters = { s.trunkCounters with locks := bump s.trunkCounters.locks } ∧
        u.notices = s.notices.raise (.trunkLocked s.link.epoch)) ∧
    ∀ rest : List Byte,
      (∀ e0 e1 lo hi, rest = [e0, e1, lo, hi] →
        checkBytes (recordCheck [0x32, e0, e1]) ≠ [lo, hi] ∨ read16 e0 e1 ≠ s.link.epoch) →
      ∃ u, exec (.acknowledgement rest) s = .next u.finish ∧ SameBut s u [.trunkCounters] ∧
        u.trunkCounters = { s.trunkCounters with rxDiscarded := bump s.trunkCounters.rxDiscarded }

/-- R130, R135 and R185: a reverse record of no known kind in TRAINING and LOCKED, a grant or a command record in
TRAINING, and an acknowledgement in LOCKED are discarded and move RX_DISCARDED; in HALTED and DOWN no reverse record is
received, and nothing changes. -/
def Obligations.OtherReverseRecordsAreDiscarded : Prop :=
  (∀ c s, s.resetLine = .high →
    (∃ record, c = .unknownReverseRecord record ∧ c.wellFormed = true ∧
      (s.link.state = .training ∨ s.link.state = .locked)) ∨
    (∃ rest, (c = .creditGrant rest ∨ c = .remoteCommandRecord rest) ∧ s.link.state = .training) ∨
    (∃ rest, c = .acknowledgement rest ∧ s.link.state = .locked) →
    ∃ u, exec c s = .next u.finish ∧ SameBut s u [.trunkCounters] ∧
      u.trunkCounters = { s.trunkCounters with rxDiscarded := bump s.trunkCounters.rxDiscarded }) ∧
  ∀ c s, s.link.state = .halted ∨ s.link.state = .down →
    (∃ rest, c = .creditGrant rest ∨ c = .remoteCommandRecord rest ∨ c = .acknowledgement rest ∨
      c = .unknownReverseRecord rest) →
    exec c s = .next s

/-- R132, R133 and R134 with R115, R119 and R121: the train timer's end makes the link DOWN and starts the retry
timer; the retry timer's end starts training again; and signal loss in LOCKED interrupts the transmission, drops the
balance and the stall, makes the link DOWN, starts the retry timer and raises TRUNK_DOWN. In DOWN TRUNK_TX is quiet. -/
def Obligations.LinkFallsAndRetries : Prop :=
  ∀ s, s.resetLine = .high →
    let fallen : Link :=
      { s.link with
        state := .down, reverseAligned := false, trainTimer := .stopped, retryTimer := .running 100 }
    (s.link.trainTimer.isRunning = true →
      ∃ u, exec .trainTimerExpiry s = .next u.finish ∧ SameBut s u [.link, .trunkCounters] ∧ u.link = fallen ∧
        u.trunkSignal = .quiet ∧
        u.trunkCounters = { s.trunkCounters with trainFails := bump s.trunkCounters.trainFails }) ∧
    (s.link.retryTimer.isRunning = true →
      ∃ u, exec .retryTimerExpiry s = .next u.finish ∧ SameBut s u [.link] ∧
        u.link =
          { s.link with
            state := .training, reverseAligned := false, trainTimer := .running 20, retryTimer := .stopped } ∧
        u.trunkSignal = .pattern) ∧
    (s.link.state = .down → s.trunkSignal = .quiet) ∧
    (s.link.state = .locked →
      ∃ u, exec .signalLoss s = .next u.finish ∧ SameBut s u [.sender, .link, .trunkCounters, .notices] ∧
        u.sender =
          { credits := 0, inFlight := .nothing, stallTimer := .stopped, stalled := false, wire := [],
            headInterrupted := s.sender.headInterrupted || decide (s.sender.inFlight = .stream) } ∧
        u.link = fallen ∧ u.trunkSignal = .quiet ∧
        u.trunkCounters = { s.trunkCounters with signalLosses := bump s.trunkCounters.signalLosses } ∧
        u.notices = s.notices.raise .trunkDown)

/-- R114 with R69, R80 and R172: when a transmission on the trunk completes nothing is in flight; a stream record has
left the head of the queue, its descriptor is free, its segments have gone back to the pool from its route, and
RECORDS_SENT moves; a reply has left the remote output slot and REPLIES_SENT moves; a notice is marked SENT and
NOTICES_SENT moves. (A reply whose source has a part reset pending is PartResetsAreTaken's.) -/
def Obligations.TransmissionCompletionFreesTheSender : Prop :=
  ∀ s straps, s.resetLine = .high →
    let free : Sender := { s.sender with inFlight := .nothing, wire := [] }
    (∀ record rest, s.sender.inFlight = .stream → s.queue = record :: rest →
      ∃ u, exec (.transmissionCompletion straps) s = .next u.finish ∧
        SameBut s u [.sender, .queue, .pool, .routes, .trunkCounters] ∧ OnlyRoute s u record.route ∧
        u.sender = free ∧ u.queue = rest ∧ u.pool = s.pool.freed record.segments 1 ∧
        u.route record.route =
          { s.route record.route with
            heldSegments := (s.route record.route).heldSegments - record.segments } ∧
        u.trunkCounters = { s.trunkCounters with recordsSent := bump s.trunkCounters.recordsSent }) ∧
    (s.sender.inFlight = .reply →
      (∀ pending, s.resetPending = some pending → pending.source ≠ .remoteSource) →
      ∃ u, exec (.transmissionCompletion straps) s = .next u.finish ∧
        SameBut s u [.sender, .sourceRemote, .trunkCounters] ∧ u.sender = free ∧
        u.sourceRemote = { s.sourceRemote with slot := none } ∧
        u.trunkCounters = { s.trunkCounters with repliesSent := bump s.trunkCounters.repliesSent }) ∧
    ∀ sequence, s.sender.inFlight = .notice sequence →
      ∃ u, exec (.transmissionCompletion straps) s = .next u.finish ∧
        SameBut s u [.sender, .notices, .trunkCounters] ∧ u.sender = free ∧
        u.notices =
          { s.notices with
            held := s.notices.held.map fun n => if n.sequence = sequence then { n with sent := true } else n } ∧
        u.trunkCounters = { s.trunkCounters with noticesSent := bump s.trunkCounters.noticesSent }

/-- R41, R120 and R160: the frame idle timer's end aborts the open frame with reason IDLE, or ends a skip; the stall
timer's end makes stalled yes, moves STALLS and raises TRUNK_STALL; the lease timer's end takes the lease from its
holder, moves LEASE_EXPIRIES of that source and raises LEASE_LOST. -/
def Obligations.ExpiriesActOnce : Prop :=
  ∀ s, s.resetLine = .high →
    (∀ r, (s.route r).idleTimer.isRunning = true →
      ∃ u, exec (.frameIdleExpiry r) s = .next u.finish ∧ FrameEnded s u r .idle) ∧
    (s.sender.stallTimer.isRunning = true →
      ∃ u, exec .stallExpiry s = .next u.finish ∧ SameBut s u [.sender, .trunkCounters, .notices] ∧
        u.sender = { s.sender with stalled := true, stallTimer := .stopped } ∧
        u.trunkCounters = { s.trunkCounters with stalls := bump s.trunkCounters.stalls } ∧
        u.notices = s.notices.raise .trunkStall) ∧
    ∀ src, s.lease.timer.isRunning = true → s.lease.holder = some src →
      ∃ u, exec .leaseExpiry s = .next u.finish ∧ SameBut s u [.lease, src.piece, .notices] ∧
        u.lease = { s.lease with holder := none, timer := .stopped } ∧
        u.source src =
          { s.source src with
            counters :=
              { (s.source src).counters with leaseExpiries := bump (s.source src).counters.leaseExpiries } } ∧
        u.notices = s.notices.raise (.leaseLost src)

/-- R162, R163 and R164 with R127 and R170: the five events that take a part reset leave every block at its reset value
with their cause and epoch. POWER_ON sets epoch 1; every other reset the epoch after the present one, 65,535 being
followed by 1. The queue of waiting commands is the environment's and stays (the model's, log entry 1). -/
def Obligations.PartResetsAreTaken : Prop :=
  ∀ (s : State) (straps : Straps),
    let next := if s.link.epoch = 65535 then 1 else s.link.epoch + 1
    (∃ t, exec (.powerOn straps false) s = .next t ∧ IsReset t .powerOn 1 straps ∧ t.pending = s.pending) ∧
    (s.resetLine = .low →
      ∃ t, exec (.resetNReleased straps) s = .next t ∧ IsReset t .pin next straps ∧ t.pending = s.pending) ∧
    (s.resetLine = .lowSincePowerOn →
      ∃ t, exec (.resetNReleased straps) s = .next t ∧ IsReset t .powerOn 1 straps ∧ t.pending = s.pending) ∧
    ∀ src grace, s.resetLine = .high → s.resetPending = some { source := src, grace } →
      (grace.isRunning = true →
        ∃ t, exec (.graceExpiry straps) s = .next t ∧ IsReset t (.command src .grace) next straps ∧
          t.pending = s.pending) ∧
      (src = .localSource → s.transmitter.sending = .reply →
        ∃ t, exec (.controlPortCompletion straps) s = .next t ∧
          IsReset t (.command src .replySent) next straps ∧ t.pending = s.pending) ∧
      (src = .remoteSource → s.sender.inFlight = .reply →
        ∃ t, exec (.transmissionCompletion straps) s = .next t ∧
          IsReset t (.command src .replySent) next straps ∧ t.pending = s.pending)

/-- R163: RESET_N going low ends every transmission without completion, discards every reception and a pending part
reset, and holds the part; the rest stays until the reset (the model's, log entry 15; so are the reset values of the
receive logic, log entry 19). A power-on with RESET_N low holds the part for a reset of cause POWER_ON. A part that is
held takes no event but power-on and the release of the pin, and drives TRUNK_TX quiet. -/
def Obligations.ResetPinHoldsThePart : Prop :=
  let heldPart (s u : State) (line : ResetLine) : Prop :=
    SameBut s u [.ports, .sender, .receiver, .transmitter, .resetPending, .resetLine] ∧
    (∀ p, u.port p = { s.port p with reception := none }) ∧
    u.sender = { s.sender with inFlight := .nothing, wire := [] } ∧
    u.receiver = { state := .idle, position := .length, length := none, record := [], gapTimer := .stopped } ∧
    u.transmitter = { sending := .nothing, wire := [] } ∧ u.resetPending = none ∧ u.resetLine = line
  (∀ s, s.resetLine = .high → ∃ u, exec .resetNAsserted s = .next u ∧ heldPart s u .low) ∧
  (∀ s straps, ∃ u, exec (.powerOn straps true) s = .next u ∧ heldPart s u .lowSincePowerOn) ∧
  (∀ s straps, s.resetLine = .high → exec (.resetNReleased straps) s = .next s) ∧
  (∀ c s, s.resetLine ≠ .high → (∀ straps low, c ≠ .powerOn straps low) → (∀ straps, c ≠ .resetNReleased straps) →
    exec c s = .next s) ∧
  ∀ s : State, s.resetLine ≠ .high → s.trunkSignal = .quiet

/-! ## The laws that every step keeps -/

/-- R68 and R73: every step keeps the segments of the pool and the descriptors of the queue: none is lost and none made.
Each law is kept alone. -/
def Obligations.PoolIsConserved : Prop :=
  ∀ s t, step s = .next t →
    (s.SegmentsConserved → t.SegmentsConserved) ∧ (s.DescriptorsConserved → t.DescriptorsConserved)

/-- R19, R25, R26 and R70: every step keeps each entry's values in range, the sealed rule, the held segments within the
cap, and no two routes in service on one trunk channel. -/
def Obligations.RouteTableLawsAreKept : Prop :=
  ∀ s t, step s = .next t → (s.Configured → t.Configured) ∧ (s.ClashFree → t.ClashFree)

/-- R21, R41, R51 and R87: every step keeps the gate law (CLOSING is ASSEMBLING, SHUT is not, DISABLED is IDLE), the
timer of an IDLE route stopped, and the counts of every open frame. -/
def Obligations.RouteRuntimeLawsAreKept : Prop :=
  ∀ s t, step s = .next t →
    (s.GateLaw → t.GateLaw) ∧
    ((∀ r, (s.route r).TimerLaw) → ∀ r, (t.route r).TimerLaw) ∧
    ((∀ r, (s.route r).FrameCounts) → ∀ r, (t.route r).FrameCounts)

/-- R108 with R58: every step keeps the queue such that each trunk channel carries whole frames in order, each an
opening mark, then lines numbered from 1 and sides, then one closing or abort mark that names the same frame and its
lines forwarded, and such that the open frames of the table are the frames the queue leaves open. -/
def Obligations.FramesStayWhole : Prop :=
  ∀ s t, step s = .next t → s.FrameIntegrity → t.FrameIntegrity

/-- R1, R4, R7, R144, R157, R166 and R167: every step keeps the laws of the ports, of the receive logic, of the lease
and of the notice queue, each alone. -/
def Obligations.BlockLawsAreKept : Prop :=
  ∀ s t, step s = .next t →
    ((∀ p, (s.port p).Law) → ∀ p, (t.port p).Law) ∧ (s.receiver.Law → t.receiver.Law) ∧
    (s.lease.Law → t.lease.Law) ∧ (s.notices.Law → t.notices.Law)

/-- R110, R112, R119 to R121, R126, R140 and R156: every step keeps the laws of the link with its sender and of the
stall, and leaves no free path with something it could send. -/
def Obligations.TransmitLawsAreKept : Prop :=
  ∀ s t, step s = .next t →
    (s.LinkLaw → t.LinkLaw) ∧ (s.StallLaw → t.StallLaw) ∧ (s.NothingWaits → t.NothingWaits)

/-- R107, R19 and R127: no step moves a queued record: records are only added at the tail, or the head leaves when its
transmission completes, or a part reset empties the queue. No step but a ROUTE_WRITE and a part reset changes a
configuration, and none but a part reset changes the epoch. -/
def Obligations.OnlyTheseEventsChangeThem : Prop :=
  ∀ c s t, exec c s = .next t →
    ((∃ added, t.queue = s.queue ++ added) ∨
      (∃ straps record, c = .transmissionCompletion straps ∧ s.sender.inFlight = .stream ∧
        s.queue = record :: t.queue) ∨
      (mayReset c = true ∧ t.queue = [])) ∧
    (c ≠ .routeWrite → mayReset c = false → ∀ r, (t.route r).config = (s.route r).config) ∧
    (mayReset c = false → t.link.epoch = s.link.epoch)

/-- The state right after reset meets every law above. (Its straps are the model's choice, log entry 2.) -/
def Obligations.ResetMeetsEveryLaw : Prop :=
  let s := State.reset
  s.SegmentsConserved ∧ s.DescriptorsConserved ∧ s.Configured ∧ s.GateLaw ∧ s.FrameIntegrity ∧
  (∀ r, (s.route r).TimerLaw ∧ (s.route r).FrameCounts) ∧ (∀ p, (s.port p).Law) ∧ s.receiver.Law ∧ s.lease.Law ∧
  s.notices.Law ∧ s.LinkLaw ∧ s.StallLaw ∧ s.NothingWaits
end

