-- ==== Sys2Proof/Laws/State.lean ====
section
/-! SUPPORT. One lemma per field per update, all true by `rfl` and tagged for `simp`, so that no proof unfolds a record
update; reading an entry, a port or a source after a change of one; and the sum over the table after a change of one
entry. -/

namespace Sys2Proof.Machine

/-! ## Reading after writing -/

theorem State.route_congr {s t : State} (h : t.routes = s.routes) (r : Fin 64) : t.route r = s.route r := by
  simp [State.route, h]

theorem State.port_congr {s t : State} (h : t.ports = s.ports) (p : Fin 4) : t.port p = s.port p := by
  simp [State.port, h]

@[simp] theorem State.route_setRoute_self (s : State) (r : Fin 64) (x : Route) : (s.setRoute r x).route r = x := by
  simp [State.route, State.setRoute]

theorem State.route_setRoute_ne (s : State) {r k : Fin 64} (x : Route) (h : k ≠ r) :
    (s.setRoute r x).route k = s.route k := by
  have h' : r.val ≠ k.val := fun e => h (Fin.ext e.symm)
  simp [State.route, State.setRoute, h']

theorem State.route_setRoute (s : State) (r k : Fin 64) (x : Route) :
    (s.setRoute r x).route k = if k = r then x else s.route k := by
  split
  · next h => subst h; simp
  · next h => exact s.route_setRoute_ne x h

@[simp] theorem State.port_setPort_self (s : State) (p : Fin 4) (x : Port) : (s.setPort p x).port p = x := by
  simp [State.port, State.setPort]

theorem State.port_setPort_ne (s : State) {p k : Fin 4} (x : Port) (h : k ≠ p) :
    (s.setPort p x).port k = s.port k := by
  have h' : p.val ≠ k.val := fun e => h (Fin.ext e.symm)
  simp [State.port, State.setPort, h']

theorem State.port_setPort (s : State) (p k : Fin 4) (x : Port) :
    (s.setPort p x).port k = if k = p then x else s.port k := by
  split
  · next h => subst h; simp
  · next h => exact s.port_setPort_ne x h

theorem State.modifyRoute_eq (s : State) (r : Fin 64) (f : Route → Route) :
    s.modifyRoute r f = s.setRoute r (f (s.route r)) := rfl

theorem State.modifyPort_eq (s : State) (p : Fin 4) (f : Port → Port) :
    s.modifyPort p f = s.setPort p (f (s.port p)) := rfl

@[simp] theorem State.route_modifyRoute_self (s : State) (r : Fin 64) (f : Route → Route) :
    (s.modifyRoute r f).route r = f (s.route r) := s.route_setRoute_self r _

theorem State.route_modifyRoute_ne (s : State) {r k : Fin 64} (f : Route → Route) (h : k ≠ r) :
    (s.modifyRoute r f).route k = s.route k := s.route_setRoute_ne _ h

theorem State.route_modifyRoute (s : State) (r k : Fin 64) (f : Route → Route) :
    (s.modifyRoute r f).route k = if k = r then f (s.route r) else s.route k := s.route_setRoute r k _

@[simp] theorem State.port_modifyPort_self (s : State) (p : Fin 4) (f : Port → Port) :
    (s.modifyPort p f).port p = f (s.port p) := s.port_setPort_self p _

theorem State.port_modifyPort_ne (s : State) {p k : Fin 4} (f : Port → Port) (h : k ≠ p) :
    (s.modifyPort p f).port k = s.port k := s.port_setPort_ne _ h

theorem State.port_modifyPort (s : State) (p k : Fin 4) (f : Port → Port) :
    (s.modifyPort p f).port k = if k = p then f (s.port p) else s.port k := s.port_setPort p k _

/-- Two changes of one entry are the second one alone. -/
theorem State.setRoute_setRoute (s : State) (r : Fin 64) (x y : Route) :
    (s.setRoute r x).setRoute r y = s.setRoute r y := by
  simp [State.setRoute]

/-- Two changes of one port are the second one alone. -/
theorem State.setPort_setPort (s : State) (p : Fin 4) (x y : Port) :
    (s.setPort p x).setPort p y = s.setPort p y := by
  simp [State.setPort]

@[simp] theorem State.source_setSource_self (s : State) (src : Source) (x : SourceState) :
    (s.setSource src x).source src = x := by cases src <;> rfl

theorem State.source_setSource_ne (s : State) {src k : Source} (x : SourceState) (h : k ≠ src) :
    (s.setSource src x).source k = s.source k := by
  cases src <;> cases k <;> first | rfl | exact absurd rfl h

@[simp] theorem State.source_modifySource_self (s : State) (src : Source) (f : SourceState → SourceState) :
    (s.modifySource src f).source src = f (s.source src) := s.source_setSource_self src _

theorem State.source_modifySource_ne (s : State) {src k : Source} (f : SourceState → SourceState) (h : k ≠ src) :
    (s.modifySource src f).source k = s.source k := s.source_setSource_ne _ h

/-! ## The sum over the table -/

theorem sum_set_map {α : Type} (f : α → Nat) :
    ∀ (l : List α) (n : Nat) (h : n < l.length) (x : α),
      ((l.set n x).map f).sum + f l[n] = (l.map f).sum + f x
  | [], _, h, _ => absurd h (by simp)
  | a :: l, 0, _, x => by simp; omega
  | a :: l, n + 1, h, x => by
    have ih := sum_set_map f l n (by simpa using h) x
    simp only [List.set_cons_succ, List.map_cons, List.sum_cons, List.getElem_cons_succ]
    omega

/-- Changing one entry changes a sum over the table by the difference at that entry. -/
theorem State.sumRoutes_setRoute (s : State) (r : Fin 64) (x : Route) (f : Route → Nat) :
    (s.setRoute r x).sumRoutes f + f (s.route r) = s.sumRoutes f + f x := by
  have h := sum_set_map f s.routes.toList r.val (by simp) x
  simpa only [State.sumRoutes, State.setRoute, State.route, Vector.toList_set, Vector.getElem_toList] using h

theorem State.sumRoutes_congr {s t : State} (h : t.routes = s.routes) (f : Route → Nat) :
    t.sumRoutes f = s.sumRoutes f := by simp [State.sumRoutes, h]

/-- An entry's share is at most the sum over the table. -/
theorem State.le_sumRoutes (s : State) (r : Fin 64) (f : Route → Nat) : f (s.route r) ≤ s.sumRoutes f := by
  apply List.single_le_sum (by simp)
  simp only [List.mem_map, State.route]
  exact ⟨s.routes[r.val], by simp, rfl⟩

/-! ## The fields an update leaves -/

/-! ### `setRoute` changes `routes` alone -/

@[simp] theorem State.setRoute_ports (s : State) (r : Fin 64) (x : Route) : (s.setRoute r x).ports = s.ports := rfl
@[simp] theorem State.setRoute_pool (s : State) (r : Fin 64) (x : Route) : (s.setRoute r x).pool = s.pool := rfl
@[simp] theorem State.setRoute_queue (s : State) (r : Fin 64) (x : Route) : (s.setRoute r x).queue = s.queue := rfl
@[simp] theorem State.setRoute_sender (s : State) (r : Fin 64) (x : Route) : (s.setRoute r x).sender = s.sender := rfl
@[simp] theorem State.setRoute_link (s : State) (r : Fin 64) (x : Route) : (s.setRoute r x).link = s.link := rfl
@[simp] theorem State.setRoute_trunkCounters (s : State) (r : Fin 64) (x : Route) :
    (s.setRoute r x).trunkCounters = s.trunkCounters := rfl
@[simp] theorem State.setRoute_receiver (s : State) (r : Fin 64) (x : Route) :
    (s.setRoute r x).receiver = s.receiver := rfl
@[simp] theorem State.setRoute_transmitter (s : State) (r : Fin 64) (x : Route) :
    (s.setRoute r x).transmitter = s.transmitter := rfl
@[simp] theorem State.setRoute_rate (s : State) (r : Fin 64) (x : Route) : (s.setRoute r x).rate = s.rate := rfl
@[simp] theorem State.setRoute_sourceLocal (s : State) (r : Fin 64) (x : Route) :
    (s.setRoute r x).sourceLocal = s.sourceLocal := rfl
@[simp] theorem State.setRoute_sourceRemote (s : State) (r : Fin 64) (x : Route) :
    (s.setRoute r x).sourceRemote = s.sourceRemote := rfl
@[simp] theorem State.setRoute_arbiter (s : State) (r : Fin 64) (x : Route) :
    (s.setRoute r x).arbiter = s.arbiter := rfl
@[simp] theorem State.setRoute_resetPending (s : State) (r : Fin 64) (x : Route) :
    (s.setRoute r x).resetPending = s.resetPending := rfl
@[simp] theorem State.setRoute_lease (s : State) (r : Fin 64) (x : Route) : (s.setRoute r x).lease = s.lease := rfl
@[simp] theorem State.setRoute_resetCause (s : State) (r : Fin 64) (x : Route) :
    (s.setRoute r x).resetCause = s.resetCause := rfl
@[simp] theorem State.setRoute_notices (s : State) (r : Fin 64) (x : Route) :
    (s.setRoute r x).notices = s.notices := rfl
@[simp] theorem State.setRoute_resetLine (s : State) (r : Fin 64) (x : Route) :
    (s.setRoute r x).resetLine = s.resetLine := rfl
@[simp] theorem State.setRoute_pending (s : State) (r : Fin 64) (x : Route) :
    (s.setRoute r x).pending = s.pending := rfl
@[simp] theorem State.setRoute_port (s : State) (r : Fin 64) (x : Route) (k : Fin 4) :
    (s.setRoute r x).port k = s.port k := rfl

/-! ### `modifyRoute` changes `routes` alone -/

@[simp] theorem State.modifyRoute_ports (s : State) (r : Fin 64) (f : Route → Route) :
    (s.modifyRoute r f).ports = s.ports := rfl
@[simp] theorem State.modifyRoute_pool (s : State) (r : Fin 64) (f : Route → Route) :
    (s.modifyRoute r f).pool = s.pool := rfl
@[simp] theorem State.modifyRoute_queue (s : State) (r : Fin 64) (f : Route → Route) :
    (s.modifyRoute r f).queue = s.queue := rfl
@[simp] theorem State.modifyRoute_sender (s : State) (r : Fin 64) (f : Route → Route) :
    (s.modifyRoute r f).sender = s.sender := rfl
@[simp] theorem State.modifyRoute_link (s : State) (r : Fin 64) (f : Route → Route) :
    (s.modifyRoute r f).link = s.link := rfl
@[simp] theorem State.modifyRoute_trunkCounters (s : State) (r : Fin 64) (f : Route → Route) :
    (s.modifyRoute r f).trunkCounters = s.trunkCounters := rfl
@[simp] theorem State.modifyRoute_receiver (s : State) (r : Fin 64) (f : Route → Route) :
    (s.modifyRoute r f).receiver = s.receiver := rfl
@[simp] theorem State.modifyRoute_transmitter (s : State) (r : Fin 64) (f : Route → Route) :
    (s.modifyRoute r f).transmitter = s.transmitter := rfl
@[simp] theorem State.modifyRoute_rate (s : State) (r : Fin 64) (f : Route → Route) :
    (s.modifyRoute r f).rate = s.rate := rfl
@[simp] theorem State.modifyRoute_sourceLocal (s : State) (r : Fin 64) (f : Route → Route) :
    (s.modifyRoute r f).sourceLocal = s.sourceLocal := rfl
@[simp] theorem State.modifyRoute_sourceRemote (s : State) (r : Fin 64) (f : Route → Route) :
    (s.modifyRoute r f).sourceRemote = s.sourceRemote := rfl
@[simp] theorem State.modifyRoute_arbiter (s : State) (r : Fin 64) (f : Route → Route) :
    (s.modifyRoute r f).arbiter = s.arbiter := rfl
@[simp] theorem State.modifyRoute_resetPending (s : State) (r : Fin 64) (f : Route → Route) :
    (s.modifyRoute r f).resetPending = s.resetPending := rfl
@[simp] theorem State.modifyRoute_lease (s : State) (r : Fin 64) (f : Route → Route) :
    (s.modifyRoute r f).lease = s.lease := rfl
@[simp] theorem State.modifyRoute_resetCause (s : State) (r : Fin 64) (f : Route → Route) :
    (s.modifyRoute r f).resetCause = s.resetCause := rfl
@[simp] theorem State.modifyRoute_notices (s : State) (r : Fin 64) (f : Route → Route) :
    (s.modifyRoute r f).notices = s.notices := rfl
@[simp] theorem State.modifyRoute_resetLine (s : State) (r : Fin 64) (f : Route → Route) :
    (s.modifyRoute r f).resetLine = s.resetLine := rfl
@[simp] theorem State.modifyRoute_pending (s : State) (r : Fin 64) (f : Route → Route) :
    (s.modifyRoute r f).pending = s.pending := rfl
@[simp] theorem State.modifyRoute_port (s : State) (r : Fin 64) (f : Route → Route) (k : Fin 4) :
    (s.modifyRoute r f).port k = s.port k := rfl

/-! ### `countRoute` changes `routes` alone -/

@[simp] theorem State.countRoute_ports (s : State) (r : Fin 64) (f : RouteCounters → RouteCounters) :
    (s.countRoute r f).ports = s.ports := rfl
@[simp] theorem State.countRoute_pool (s : State) (r : Fin 64) (f : RouteCounters → RouteCounters) :
    (s.countRoute r f).pool = s.pool := rfl
@[simp] theorem State.countRoute_queue (s : State) (r : Fin 64) (f : RouteCounters → RouteCounters) :
    (s.countRoute r f).queue = s.queue := rfl
@[simp] theorem State.countRoute_sender (s : State) (r : Fin 64) (f : RouteCounters → RouteCounters) :
    (s.countRoute r f).sender = s.sender := rfl
@[simp] theorem State.countRoute_link (s : State) (r : Fin 64) (f : RouteCounters → RouteCounters) :
    (s.countRoute r f).link = s.link := rfl
@[simp] theorem State.countRoute_trunkCounters (s : State) (r : Fin 64) (f : RouteCounters → RouteCounters) :
    (s.countRoute r f).trunkCounters = s.trunkCounters := rfl
@[simp] theorem State.countRoute_receiver (s : State) (r : Fin 64) (f : RouteCounters → RouteCounters) :
    (s.countRoute r f).receiver = s.receiver := rfl
@[simp] theorem State.countRoute_transmitter (s : State) (r : Fin 64) (f : RouteCounters → RouteCounters) :
    (s.countRoute r f).transmitter = s.transmitter := rfl
@[simp] theorem State.countRoute_rate (s : State) (r : Fin 64) (f : RouteCounters → RouteCounters) :
    (s.countRoute r f).rate = s.rate := rfl
@[simp] theorem State.countRoute_sourceLocal (s : State) (r : Fin 64) (f : RouteCounters → RouteCounters) :
    (s.countRoute r f).sourceLocal = s.sourceLocal := rfl
@[simp] theorem State.countRoute_sourceRemote (s : State) (r : Fin 64) (f : RouteCounters → RouteCounters) :
    (s.countRoute r f).sourceRemote = s.sourceRemote := rfl
@[simp] theorem State.countRoute_arbiter (s : State) (r : Fin 64) (f : RouteCounters → RouteCounters) :
    (s.countRoute r f).arbiter = s.arbiter := rfl
@[simp] theorem State.countRoute_resetPending (s : State) (r : Fin 64) (f : RouteCounters → RouteCounters) :
    (s.countRoute r f).resetPending = s.resetPending := rfl
@[simp] theorem State.countRoute_lease (s : State) (r : Fin 64) (f : RouteCounters → RouteCounters) :
    (s.countRoute r f).lease = s.lease := rfl
@[simp] theorem State.countRoute_resetCause (s : State) (r : Fin 64) (f : RouteCounters → RouteCounters) :
    (s.countRoute r f).resetCause = s.resetCause := rfl
@[simp] theorem State.countRoute_notices (s : State) (r : Fin 64) (f : RouteCounters → RouteCounters) :
    (s.countRoute r f).notices = s.notices := rfl
@[simp] theorem State.countRoute_resetLine (s : State) (r : Fin 64) (f : RouteCounters → RouteCounters) :
    (s.countRoute r f).resetLine = s.resetLine := rfl
@[simp] theorem State.countRoute_pending (s : State) (r : Fin 64) (f : RouteCounters → RouteCounters) :
    (s.countRoute r f).pending = s.pending := rfl
@[simp] theorem State.countRoute_port (s : State) (r : Fin 64) (f : RouteCounters → RouteCounters) (k : Fin 4) :
    (s.countRoute r f).port k = s.port k := rfl

/-! ### `setAssembly` changes `routes` alone -/

@[simp] theorem State.setAssembly_ports (s : State) (r : Fin 64) (a : Assembly) :
    (s.setAssembly r a).ports = s.ports := rfl
@[simp] theorem State.setAssembly_pool (s : State) (r : Fin 64) (a : Assembly) :
    (s.setAssembly r a).pool = s.pool := rfl
@[simp] theorem State.setAssembly_queue (s : State) (r : Fin 64) (a : Assembly) :
    (s.setAssembly r a).queue = s.queue := rfl
@[simp] theorem State.setAssembly_sender (s : State) (r : Fin 64) (a : Assembly) :
    (s.setAssembly r a).sender = s.sender := rfl
@[simp] theorem State.setAssembly_link (s : State) (r : Fin 64) (a : Assembly) :
    (s.setAssembly r a).link = s.link := rfl
@[simp] theorem State.setAssembly_trunkCounters (s : State) (r : Fin 64) (a : Assembly) :
    (s.setAssembly r a).trunkCounters = s.trunkCounters := rfl
@[simp] theorem State.setAssembly_receiver (s : State) (r : Fin 64) (a : Assembly) :
    (s.setAssembly r a).receiver = s.receiver := rfl
@[simp] theorem State.setAssembly_transmitter (s : State) (r : Fin 64) (a : Assembly) :
    (s.setAssembly r a).transmitter = s.transmitter := rfl
@[simp] theorem State.setAssembly_rate (s : State) (r : Fin 64) (a : Assembly) :
    (s.setAssembly r a).rate = s.rate := rfl
@[simp] theorem State.setAssembly_sourceLocal (s : State) (r : Fin 64) (a : Assembly) :
    (s.setAssembly r a).sourceLocal = s.sourceLocal := rfl
@[simp] theorem State.setAssembly_sourceRemote (s : State) (r : Fin 64) (a : Assembly) :
    (s.setAssembly r a).sourceRemote = s.sourceRemote := rfl
@[simp] theorem State.setAssembly_arbiter (s : State) (r : Fin 64) (a : Assembly) :
    (s.setAssembly r a).arbiter = s.arbiter := rfl
@[simp] theorem State.setAssembly_resetPending (s : State) (r : Fin 64) (a : Assembly) :
    (s.setAssembly r a).resetPending = s.resetPending := rfl
@[simp] theorem State.setAssembly_lease (s : State) (r : Fin 64) (a : Assembly) :
    (s.setAssembly r a).lease = s.lease := rfl
@[simp] theorem State.setAssembly_resetCause (s : State) (r : Fin 64) (a : Assembly) :
    (s.setAssembly r a).resetCause = s.resetCause := rfl
@[simp] theorem State.setAssembly_notices (s : State) (r : Fin 64) (a : Assembly) :
    (s.setAssembly r a).notices = s.notices := rfl
@[simp] theorem State.setAssembly_resetLine (s : State) (r : Fin 64) (a : Assembly) :
    (s.setAssembly r a).resetLine = s.resetLine := rfl
@[simp] theorem State.setAssembly_pending (s : State) (r : Fin 64) (a : Assembly) :
    (s.setAssembly r a).pending = s.pending := rfl
@[simp] theorem State.setAssembly_port (s : State) (r : Fin 64) (a : Assembly) (k : Fin 4) :
    (s.setAssembly r a).port k = s.port k := rfl

/-! ### `stopIdleTimer` changes `routes` alone -/

@[simp] theorem State.stopIdleTimer_ports (s : State) (r : Fin 64) : (s.stopIdleTimer r).ports = s.ports := rfl
@[simp] theorem State.stopIdleTimer_pool (s : State) (r : Fin 64) : (s.stopIdleTimer r).pool = s.pool := rfl
@[simp] theorem State.stopIdleTimer_queue (s : State) (r : Fin 64) : (s.stopIdleTimer r).queue = s.queue := rfl
@[simp] theorem State.stopIdleTimer_sender (s : State) (r : Fin 64) : (s.stopIdleTimer r).sender = s.sender := rfl
@[simp] theorem State.stopIdleTimer_link (s : State) (r : Fin 64) : (s.stopIdleTimer r).link = s.link := rfl
@[simp] theorem State.stopIdleTimer_trunkCounters (s : State) (r : Fin 64) :
    (s.stopIdleTimer r).trunkCounters = s.trunkCounters := rfl
@[simp] theorem State.stopIdleTimer_receiver (s : State) (r : Fin 64) :
    (s.stopIdleTimer r).receiver = s.receiver := rfl
@[simp] theorem State.stopIdleTimer_transmitter (s : State) (r : Fin 64) :
    (s.stopIdleTimer r).transmitter = s.transmitter := rfl
@[simp] theorem State.stopIdleTimer_rate (s : State) (r : Fin 64) : (s.stopIdleTimer r).rate = s.rate := rfl
@[simp] theorem State.stopIdleTimer_sourceLocal (s : State) (r : Fin 64) :
    (s.stopIdleTimer r).sourceLocal = s.sourceLocal := rfl
@[simp] theorem State.stopIdleTimer_sourceRemote (s : State) (r : Fin 64) :
    (s.stopIdleTimer r).sourceRemote = s.sourceRemote := rfl
@[simp] theorem State.stopIdleTimer_arbiter (s : State) (r : Fin 64) : (s.stopIdleTimer r).arbiter = s.arbiter := rfl
@[simp] theorem State.stopIdleTimer_resetPending (s : State) (r : Fin 64) :
    (s.stopIdleTimer r).resetPending = s.resetPending := rfl
@[simp] theorem State.stopIdleTimer_lease (s : State) (r : Fin 64) : (s.stopIdleTimer r).lease = s.lease := rfl
@[simp] theorem State.stopIdleTimer_resetCause (s : State) (r : Fin 64) :
    (s.stopIdleTimer r).resetCause = s.resetCause := rfl
@[simp] theorem State.stopIdleTimer_notices (s : State) (r : Fin 64) : (s.stopIdleTimer r).notices = s.notices := rfl
@[simp] theorem State.stopIdleTimer_resetLine (s : State) (r : Fin 64) :
    (s.stopIdleTimer r).resetLine = s.resetLine := rfl
@[simp] theorem State.stopIdleTimer_pending (s : State) (r : Fin 64) : (s.stopIdleTimer r).pending = s.pending := rfl
@[simp] theorem State.stopIdleTimer_port (s : State) (r : Fin 64) (k : Fin 4) :
    (s.stopIdleTimer r).port k = s.port k := rfl

/-! ### `setPort` changes `ports` alone -/

@[simp] theorem State.setPort_routes (s : State) (p : Fin 4) (x : Port) : (s.setPort p x).routes = s.routes := rfl
@[simp] theorem State.setPort_pool (s : State) (p : Fin 4) (x : Port) : (s.setPort p x).pool = s.pool := rfl
@[simp] theorem State.setPort_queue (s : State) (p : Fin 4) (x : Port) : (s.setPort p x).queue = s.queue := rfl
@[simp] theorem State.setPort_sender (s : State) (p : Fin 4) (x : Port) : (s.setPort p x).sender = s.sender := rfl
@[simp] theorem State.setPort_link (s : State) (p : Fin 4) (x : Port) : (s.setPort p x).link = s.link := rfl
@[simp] theorem State.setPort_trunkCounters (s : State) (p : Fin 4) (x : Port) :
    (s.setPort p x).trunkCounters = s.trunkCounters := rfl
@[simp] theorem State.setPort_receiver (s : State) (p : Fin 4) (x : Port) :
    (s.setPort p x).receiver = s.receiver := rfl
@[simp] theorem State.setPort_transmitter (s : State) (p : Fin 4) (x : Port) :
    (s.setPort p x).transmitter = s.transmitter := rfl
@[simp] theorem State.setPort_rate (s : State) (p : Fin 4) (x : Port) : (s.setPort p x).rate = s.rate := rfl
@[simp] theorem State.setPort_sourceLocal (s : State) (p : Fin 4) (x : Port) :
    (s.setPort p x).sourceLocal = s.sourceLocal := rfl
@[simp] theorem State.setPort_sourceRemote (s : State) (p : Fin 4) (x : Port) :
    (s.setPort p x).sourceRemote = s.sourceRemote := rfl
@[simp] theorem State.setPort_arbiter (s : State) (p : Fin 4) (x : Port) : (s.setPort p x).arbiter = s.arbiter := rfl
@[simp] theorem State.setPort_resetPending (s : State) (p : Fin 4) (x : Port) :
    (s.setPort p x).resetPending = s.resetPending := rfl
@[simp] theorem State.setPort_lease (s : State) (p : Fin 4) (x : Port) : (s.setPort p x).lease = s.lease := rfl
@[simp] theorem State.setPort_resetCause (s : State) (p : Fin 4) (x : Port) :
    (s.setPort p x).resetCause = s.resetCause := rfl
@[simp] theorem State.setPort_notices (s : State) (p : Fin 4) (x : Port) : (s.setPort p x).notices = s.notices := rfl
@[simp] theorem State.setPort_resetLine (s : State) (p : Fin 4) (x : Port) :
    (s.setPort p x).resetLine = s.resetLine := rfl
@[simp] theorem State.setPort_pending (s : State) (p : Fin 4) (x : Port) : (s.setPort p x).pending = s.pending := rfl
@[simp] theorem State.setPort_route (s : State) (p : Fin 4) (x : Port) (k : Fin 64) :
    (s.setPort p x).route k = s.route k := rfl

/-! ### `modifyPort` changes `ports` alone -/

@[simp] theorem State.modifyPort_routes (s : State) (p : Fin 4) (f : Port → Port) :
    (s.modifyPort p f).routes = s.routes := rfl
@[simp] theorem State.modifyPort_pool (s : State) (p : Fin 4) (f : Port → Port) :
    (s.modifyPort p f).pool = s.pool := rfl
@[simp] theorem State.modifyPort_queue (s : State) (p : Fin 4) (f : Port → Port) :
    (s.modifyPort p f).queue = s.queue := rfl
@[simp] theorem State.modifyPort_sender (s : State) (p : Fin 4) (f : Port → Port) :
    (s.modifyPort p f).sender = s.sender := rfl
@[simp] theorem State.modifyPort_link (s : State) (p : Fin 4) (f : Port → Port) :
    (s.modifyPort p f).link = s.link := rfl
@[simp] theorem State.modifyPort_trunkCounters (s : State) (p : Fin 4) (f : Port → Port) :
    (s.modifyPort p f).trunkCounters = s.trunkCounters := rfl
@[simp] theorem State.modifyPort_receiver (s : State) (p : Fin 4) (f : Port → Port) :
    (s.modifyPort p f).receiver = s.receiver := rfl
@[simp] theorem State.modifyPort_transmitter (s : State) (p : Fin 4) (f : Port → Port) :
    (s.modifyPort p f).transmitter = s.transmitter := rfl
@[simp] theorem State.modifyPort_rate (s : State) (p : Fin 4) (f : Port → Port) :
    (s.modifyPort p f).rate = s.rate := rfl
@[simp] theorem State.modifyPort_sourceLocal (s : State) (p : Fin 4) (f : Port → Port) :
    (s.modifyPort p f).sourceLocal = s.sourceLocal := rfl
@[simp] theorem State.modifyPort_sourceRemote (s : State) (p : Fin 4) (f : Port → Port) :
    (s.modifyPort p f).sourceRemote = s.sourceRemote := rfl
@[simp] theorem State.modifyPort_arbiter (s : State) (p : Fin 4) (f : Port → Port) :
    (s.modifyPort p f).arbiter = s.arbiter := rfl
@[simp] theorem State.modifyPort_resetPending (s : State) (p : Fin 4) (f : Port → Port) :
    (s.modifyPort p f).resetPending = s.resetPending := rfl
@[simp] theorem State.modifyPort_lease (s : State) (p : Fin 4) (f : Port → Port) :
    (s.modifyPort p f).lease = s.lease := rfl
@[simp] theorem State.modifyPort_resetCause (s : State) (p : Fin 4) (f : Port → Port) :
    (s.modifyPort p f).resetCause = s.resetCause := rfl
@[simp] theorem State.modifyPort_notices (s : State) (p : Fin 4) (f : Port → Port) :
    (s.modifyPort p f).notices = s.notices := rfl
@[simp] theorem State.modifyPort_resetLine (s : State) (p : Fin 4) (f : Port → Port) :
    (s.modifyPort p f).resetLine = s.resetLine := rfl
@[simp] theorem State.modifyPort_pending (s : State) (p : Fin 4) (f : Port → Port) :
    (s.modifyPort p f).pending = s.pending := rfl
@[simp] theorem State.modifyPort_route (s : State) (p : Fin 4) (f : Port → Port) (k : Fin 64) :
    (s.modifyPort p f).route k = s.route k := rfl

/-! ### `countPort` changes `ports` alone -/

@[simp] theorem State.countPort_routes (s : State) (p : Fin 4) (f : PortCounters → PortCounters) :
    (s.countPort p f).routes = s.routes := rfl
@[simp] theorem State.countPort_pool (s : State) (p : Fin 4) (f : PortCounters → PortCounters) :
    (s.countPort p f).pool = s.pool := rfl
@[simp] theorem State.countPort_queue (s : State) (p : Fin 4) (f : PortCounters → PortCounters) :
    (s.countPort p f).queue = s.queue := rfl
@[simp] theorem State.countPort_sender (s : State) (p : Fin 4) (f : PortCounters → PortCounters) :
    (s.countPort p f).sender = s.sender := rfl
@[simp] theorem State.countPort_link (s : State) (p : Fin 4) (f : PortCounters → PortCounters) :
    (s.countPort p f).link = s.link := rfl
@[simp] theorem State.countPort_trunkCounters (s : State) (p : Fin 4) (f : PortCounters → PortCounters) :
    (s.countPort p f).trunkCounters = s.trunkCounters := rfl
@[simp] theorem State.countPort_receiver (s : State) (p : Fin 4) (f : PortCounters → PortCounters) :
    (s.countPort p f).receiver = s.receiver := rfl
@[simp] theorem State.countPort_transmitter (s : State) (p : Fin 4) (f : PortCounters → PortCounters) :
    (s.countPort p f).transmitter = s.transmitter := rfl
@[simp] theorem State.countPort_rate (s : State) (p : Fin 4) (f : PortCounters → PortCounters) :
    (s.countPort p f).rate = s.rate := rfl
@[simp] theorem State.countPort_sourceLocal (s : State) (p : Fin 4) (f : PortCounters → PortCounters) :
    (s.countPort p f).sourceLocal = s.sourceLocal := rfl
@[simp] theorem State.countPort_sourceRemote (s : State) (p : Fin 4) (f : PortCounters → PortCounters) :
    (s.countPort p f).sourceRemote = s.sourceRemote := rfl
@[simp] theorem State.countPort_arbiter (s : State) (p : Fin 4) (f : PortCounters → PortCounters) :
    (s.countPort p f).arbiter = s.arbiter := rfl
@[simp] theorem State.countPort_resetPending (s : State) (p : Fin 4) (f : PortCounters → PortCounters) :
    (s.countPort p f).resetPending = s.resetPending := rfl
@[simp] theorem State.countPort_lease (s : State) (p : Fin 4) (f : PortCounters → PortCounters) :
    (s.countPort p f).lease = s.lease := rfl
@[simp] theorem State.countPort_resetCause (s : State) (p : Fin 4) (f : PortCounters → PortCounters) :
    (s.countPort p f).resetCause = s.resetCause := rfl
@[simp] theorem State.countPort_notices (s : State) (p : Fin 4) (f : PortCounters → PortCounters) :
    (s.countPort p f).notices = s.notices := rfl
@[simp] theorem State.countPort_resetLine (s : State) (p : Fin 4) (f : PortCounters → PortCounters) :
    (s.countPort p f).resetLine = s.resetLine := rfl
@[simp] theorem State.countPort_pending (s : State) (p : Fin 4) (f : PortCounters → PortCounters) :
    (s.countPort p f).pending = s.pending := rfl
@[simp] theorem State.countPort_route (s : State) (p : Fin 4) (f : PortCounters → PortCounters) (k : Fin 64) :
    (s.countPort p f).route k = s.route k := rfl

/-! ### `countTrunk` changes `trunkCounters` alone -/

@[simp] theorem State.countTrunk_ports (s : State) (f : TrunkCounters → TrunkCounters) :
    (s.countTrunk f).ports = s.ports := rfl
@[simp] theorem State.countTrunk_routes (s : State) (f : TrunkCounters → TrunkCounters) :
    (s.countTrunk f).routes = s.routes := rfl
@[simp] theorem State.countTrunk_pool (s : State) (f : TrunkCounters → TrunkCounters) :
    (s.countTrunk f).pool = s.pool := rfl
@[simp] theorem State.countTrunk_queue (s : State) (f : TrunkCounters → TrunkCounters) :
    (s.countTrunk f).queue = s.queue := rfl
@[simp] theorem State.countTrunk_sender (s : State) (f : TrunkCounters → TrunkCounters) :
    (s.countTrunk f).sender = s.sender := rfl
@[simp] theorem State.countTrunk_link (s : State) (f : TrunkCounters → TrunkCounters) :
    (s.countTrunk f).link = s.link := rfl
@[simp] theorem State.countTrunk_receiver (s : State) (f : TrunkCounters → TrunkCounters) :
    (s.countTrunk f).receiver = s.receiver := rfl
@[simp] theorem State.countTrunk_transmitter (s : State) (f : TrunkCounters → TrunkCounters) :
    (s.countTrunk f).transmitter = s.transmitter := rfl
@[simp] theorem State.countTrunk_rate (s : State) (f : TrunkCounters → TrunkCounters) :
    (s.countTrunk f).rate = s.rate := rfl
@[simp] theorem State.countTrunk_sourceLocal (s : State) (f : TrunkCounters → TrunkCounters) :
    (s.countTrunk f).sourceLocal = s.sourceLocal := rfl
@[simp] theorem State.countTrunk_sourceRemote (s : State) (f : TrunkCounters → TrunkCounters) :
    (s.countTrunk f).sourceRemote = s.sourceRemote := rfl
@[simp] theorem State.countTrunk_arbiter (s : State) (f : TrunkCounters → TrunkCounters) :
    (s.countTrunk f).arbiter = s.arbiter := rfl
@[simp] theorem State.countTrunk_resetPending (s : State) (f : TrunkCounters → TrunkCounters) :
    (s.countTrunk f).resetPending = s.resetPending := rfl
@[simp] theorem State.countTrunk_lease (s : State) (f : TrunkCounters → TrunkCounters) :
    (s.countTrunk f).lease = s.lease := rfl
@[simp] theorem State.countTrunk_resetCause (s : State) (f : TrunkCounters → TrunkCounters) :
    (s.countTrunk f).resetCause = s.resetCause := rfl
@[simp] theorem State.countTrunk_notices (s : State) (f : TrunkCounters → TrunkCounters) :
    (s.countTrunk f).notices = s.notices := rfl
@[simp] theorem State.countTrunk_resetLine (s : State) (f : TrunkCounters → TrunkCounters) :
    (s.countTrunk f).resetLine = s.resetLine := rfl
@[simp] theorem State.countTrunk_pending (s : State) (f : TrunkCounters → TrunkCounters) :
    (s.countTrunk f).pending = s.pending := rfl
@[simp] theorem State.countTrunk_route (s : State) (f : TrunkCounters → TrunkCounters) (k : Fin 64) :
    (s.countTrunk f).route k = s.route k := rfl
@[simp] theorem State.countTrunk_port (s : State) (f : TrunkCounters → TrunkCounters) (k : Fin 4) :
    (s.countTrunk f).port k = s.port k := rfl

/-! ### `raise` changes `notices` alone -/

@[simp] theorem State.raise_ports (s : State) (info : NoticeInfo) : (s.raise info).ports = s.ports := rfl
@[simp] theorem State.raise_routes (s : State) (info : NoticeInfo) : (s.raise info).routes = s.routes := rfl
@[simp] theorem State.raise_pool (s : State) (info : NoticeInfo) : (s.raise info).pool = s.pool := rfl
@[simp] theorem State.raise_queue (s : State) (info : NoticeInfo) : (s.raise info).queue = s.queue := rfl
@[simp] theorem State.raise_sender (s : State) (info : NoticeInfo) : (s.raise info).sender = s.sender := rfl
@[simp] theorem State.raise_link (s : State) (info : NoticeInfo) : (s.raise info).link = s.link := rfl
@[simp] theorem State.raise_trunkCounters (s : State) (info : NoticeInfo) :
    (s.raise info).trunkCounters = s.trunkCounters := rfl
@[simp] theorem State.raise_receiver (s : State) (info : NoticeInfo) : (s.raise info).receiver = s.receiver := rfl
@[simp] theorem State.raise_transmitter (s : State) (info : NoticeInfo) :
    (s.raise info).transmitter = s.transmitter := rfl
@[simp] theorem State.raise_rate (s : State) (info : NoticeInfo) : (s.raise info).rate = s.rate := rfl
@[simp] theorem State.raise_sourceLocal (s : State) (info : NoticeInfo) :
    (s.raise info).sourceLocal = s.sourceLocal := rfl
@[simp] theorem State.raise_sourceRemote (s : State) (info : NoticeInfo) :
    (s.raise info).sourceRemote = s.sourceRemote := rfl
@[simp] theorem State.raise_arbiter (s : State) (info : NoticeInfo) : (s.raise info).arbiter = s.arbiter := rfl
@[simp] theorem State.raise_resetPending (s : State) (info : NoticeInfo) :
    (s.raise info).resetPending = s.resetPending := rfl
@[simp] theorem State.raise_lease (s : State) (info : NoticeInfo) : (s.raise info).lease = s.lease := rfl
@[simp] theorem State.raise_resetCause (s : State) (info : NoticeInfo) :
    (s.raise info).resetCause = s.resetCause := rfl
@[simp] theorem State.raise_resetLine (s : State) (info : NoticeInfo) : (s.raise info).resetLine = s.resetLine := rfl
@[simp] theorem State.raise_pending (s : State) (info : NoticeInfo) : (s.raise info).pending = s.pending := rfl
@[simp] theorem State.raise_route (s : State) (info : NoticeInfo) (k : Fin 64) :
    (s.raise info).route k = s.route k := rfl
@[simp] theorem State.raise_port (s : State) (info : NoticeInfo) (k : Fin 4) : (s.raise info).port k = s.port k := rfl

/-! ### `takeDescriptors` changes `pool` alone -/

@[simp] theorem State.takeDescriptors_ports (s : State) (n : Nat) : (s.takeDescriptors n).ports = s.ports := rfl
@[simp] theorem State.takeDescriptors_routes (s : State) (n : Nat) : (s.takeDescriptors n).routes = s.routes := rfl
@[simp] theorem State.takeDescriptors_queue (s : State) (n : Nat) : (s.takeDescriptors n).queue = s.queue := rfl
@[simp] theorem State.takeDescriptors_sender (s : State) (n : Nat) : (s.takeDescriptors n).sender = s.sender := rfl
@[simp] theorem State.takeDescriptors_link (s : State) (n : Nat) : (s.takeDescriptors n).link = s.link := rfl
@[simp] theorem State.takeDescriptors_trunkCounters (s : State) (n : Nat) :
    (s.takeDescriptors n).trunkCounters = s.trunkCounters := rfl
@[simp] theorem State.takeDescriptors_receiver (s : State) (n : Nat) :
    (s.takeDescriptors n).receiver = s.receiver := rfl
@[simp] theorem State.takeDescriptors_transmitter (s : State) (n : Nat) :
    (s.takeDescriptors n).transmitter = s.transmitter := rfl
@[simp] theorem State.takeDescriptors_rate (s : State) (n : Nat) : (s.takeDescriptors n).rate = s.rate := rfl
@[simp] theorem State.takeDescriptors_sourceLocal (s : State) (n : Nat) :
    (s.takeDescriptors n).sourceLocal = s.sourceLocal := rfl
@[simp] theorem State.takeDescriptors_sourceRemote (s : State) (n : Nat) :
    (s.takeDescriptors n).sourceRemote = s.sourceRemote := rfl
@[simp] theorem State.takeDescriptors_arbiter (s : State) (n : Nat) : (s.takeDescriptors n).arbiter = s.arbiter := rfl
@[simp] theorem State.takeDescriptors_resetPending (s : State) (n : Nat) :
    (s.takeDescriptors n).resetPending = s.resetPending := rfl
@[simp] theorem State.takeDescriptors_lease (s : State) (n : Nat) : (s.takeDescriptors n).lease = s.lease := rfl
@[simp] theorem State.takeDescriptors_resetCause (s : State) (n : Nat) :
    (s.takeDescriptors n).resetCause = s.resetCause := rfl
@[simp] theorem State.takeDescriptors_notices (s : State) (n : Nat) : (s.takeDescriptors n).notices = s.notices := rfl
@[simp] theorem State.takeDescriptors_resetLine (s : State) (n : Nat) :
    (s.takeDescriptors n).resetLine = s.resetLine := rfl
@[simp] theorem State.takeDescriptors_pending (s : State) (n : Nat) : (s.takeDescriptors n).pending = s.pending := rfl
@[simp] theorem State.takeDescriptors_route (s : State) (n : Nat) (k : Fin 64) :
    (s.takeDescriptors n).route k = s.route k := rfl
@[simp] theorem State.takeDescriptors_port (s : State) (n : Nat) (k : Fin 4) :
    (s.takeDescriptors n).port k = s.port k := rfl

/-! ### `returnDescriptor` changes `pool` alone -/

@[simp] theorem State.returnDescriptor_ports (s : State) : s.returnDescriptor.ports = s.ports := rfl
@[simp] theorem State.returnDescriptor_routes (s : State) : s.returnDescriptor.routes = s.routes := rfl
@[simp] theorem State.returnDescriptor_queue (s : State) : s.returnDescriptor.queue = s.queue := rfl
@[simp] theorem State.returnDescriptor_sender (s : State) : s.returnDescriptor.sender = s.sender := rfl
@[simp] theorem State.returnDescriptor_link (s : State) : s.returnDescriptor.link = s.link := rfl
@[simp] theorem State.returnDescriptor_trunkCounters (s : State) :
    s.returnDescriptor.trunkCounters = s.trunkCounters := rfl
@[simp] theorem State.returnDescriptor_receiver (s : State) : s.returnDescriptor.receiver = s.receiver := rfl
@[simp] theorem State.returnDescriptor_transmitter (s : State) : s.returnDescriptor.transmitter = s.transmitter := rfl
@[simp] theorem State.returnDescriptor_rate (s : State) : s.returnDescriptor.rate = s.rate := rfl
@[simp] theorem State.returnDescriptor_sourceLocal (s : State) : s.returnDescriptor.sourceLocal = s.sourceLocal := rfl
@[simp] theorem State.returnDescriptor_sourceRemote (s : State) :
    s.returnDescriptor.sourceRemote = s.sourceRemote := rfl
@[simp] theorem State.returnDescriptor_arbiter (s : State) : s.returnDescriptor.arbiter = s.arbiter := rfl
@[simp] theorem State.returnDescriptor_resetPending (s : State) :
    s.returnDescriptor.resetPending = s.resetPending := rfl
@[simp] theorem State.returnDescriptor_lease (s : State) : s.returnDescriptor.lease = s.lease := rfl
@[simp] theorem State.returnDescriptor_resetCause (s : State) : s.returnDescriptor.resetCause = s.resetCause := rfl
@[simp] theorem State.returnDescriptor_notices (s : State) : s.returnDescriptor.notices = s.notices := rfl
@[simp] theorem State.returnDescriptor_resetLine (s : State) : s.returnDescriptor.resetLine = s.resetLine := rfl
@[simp] theorem State.returnDescriptor_pending (s : State) : s.returnDescriptor.pending = s.pending := rfl
@[simp] theorem State.returnDescriptor_route (s : State) (k : Fin 64) : s.returnDescriptor.route k = s.route k := rfl
@[simp] theorem State.returnDescriptor_port (s : State) (k : Fin 4) : s.returnDescriptor.port k = s.port k := rfl

/-! ### `takeSegments` changes `routes`, `pool` alone -/

@[simp] theorem State.takeSegments_ports (s : State) (r : Fin 64) (n : Nat) :
    (s.takeSegments r n).ports = s.ports := rfl
@[simp] theorem State.takeSegments_queue (s : State) (r : Fin 64) (n : Nat) :
    (s.takeSegments r n).queue = s.queue := rfl
@[simp] theorem State.takeSegments_sender (s : State) (r : Fin 64) (n : Nat) :
    (s.takeSegments r n).sender = s.sender := rfl
@[simp] theorem State.takeSegments_link (s : State) (r : Fin 64) (n : Nat) : (s.takeSegments r n).link = s.link := rfl
@[simp] theorem State.takeSegments_trunkCounters (s : State) (r : Fin 64) (n : Nat) :
    (s.takeSegments r n).trunkCounters = s.trunkCounters := rfl
@[simp] theorem State.takeSegments_receiver (s : State) (r : Fin 64) (n : Nat) :
    (s.takeSegments r n).receiver = s.receiver := rfl
@[simp] theorem State.takeSegments_transmitter (s : State) (r : Fin 64) (n : Nat) :
    (s.takeSegments r n).transmitter = s.transmitter := rfl
@[simp] theorem State.takeSegments_rate (s : State) (r : Fin 64) (n : Nat) : (s.takeSegments r n).rate = s.rate := rfl
@[simp] theorem State.takeSegments_sourceLocal (s : State) (r : Fin 64) (n : Nat) :
    (s.takeSegments r n).sourceLocal = s.sourceLocal := rfl
@[simp] theorem State.takeSegments_sourceRemote (s : State) (r : Fin 64) (n : Nat) :
    (s.takeSegments r n).sourceRemote = s.sourceRemote := rfl
@[simp] theorem State.takeSegments_arbiter (s : State) (r : Fin 64) (n : Nat) :
    (s.takeSegments r n).arbiter = s.arbiter := rfl
@[simp] theorem State.takeSegments_resetPending (s : State) (r : Fin 64) (n : Nat) :
    (s.takeSegments r n).resetPending = s.resetPending := rfl
@[simp] theorem State.takeSegments_lease (s : State) (r : Fin 64) (n : Nat) :
    (s.takeSegments r n).lease = s.lease := rfl
@[simp] theorem State.takeSegments_resetCause (s : State) (r : Fin 64) (n : Nat) :
    (s.takeSegments r n).resetCause = s.resetCause := rfl
@[simp] theorem State.takeSegments_notices (s : State) (r : Fin 64) (n : Nat) :
    (s.takeSegments r n).notices = s.notices := rfl
@[simp] theorem State.takeSegments_resetLine (s : State) (r : Fin 64) (n : Nat) :
    (s.takeSegments r n).resetLine = s.resetLine := rfl
@[simp] theorem State.takeSegments_pending (s : State) (r : Fin 64) (n : Nat) :
    (s.takeSegments r n).pending = s.pending := rfl
@[simp] theorem State.takeSegments_port (s : State) (r : Fin 64) (n : Nat) (k : Fin 4) :
    (s.takeSegments r n).port k = s.port k := rfl

/-! ### `returnSegments` changes `routes`, `pool` alone -/

@[simp] theorem State.returnSegments_ports (s : State) (r : Fin 64) (n : Nat) :
    (s.returnSegments r n).ports = s.ports := rfl
@[simp] theorem State.returnSegments_queue (s : State) (r : Fin 64) (n : Nat) :
    (s.returnSegments r n).queue = s.queue := rfl
@[simp] theorem State.returnSegments_sender (s : State) (r : Fin 64) (n : Nat) :
    (s.returnSegments r n).sender = s.sender := rfl
@[simp] theorem State.returnSegments_link (s : State) (r : Fin 64) (n : Nat) :
    (s.returnSegments r n).link = s.link := rfl
@[simp] theorem State.returnSegments_trunkCounters (s : State) (r : Fin 64) (n : Nat) :
    (s.returnSegments r n).trunkCounters = s.trunkCounters := rfl
@[simp] theorem State.returnSegments_receiver (s : State) (r : Fin 64) (n : Nat) :
    (s.returnSegments r n).receiver = s.receiver := rfl
@[simp] theorem State.returnSegments_transmitter (s : State) (r : Fin 64) (n : Nat) :
    (s.returnSegments r n).transmitter = s.transmitter := rfl
@[simp] theorem State.returnSegments_rate (s : State) (r : Fin 64) (n : Nat) :
    (s.returnSegments r n).rate = s.rate := rfl
@[simp] theorem State.returnSegments_sourceLocal (s : State) (r : Fin 64) (n : Nat) :
    (s.returnSegments r n).sourceLocal = s.sourceLocal := rfl
@[simp] theorem State.returnSegments_sourceRemote (s : State) (r : Fin 64) (n : Nat) :
    (s.returnSegments r n).sourceRemote = s.sourceRemote := rfl
@[simp] theorem State.returnSegments_arbiter (s : State) (r : Fin 64) (n : Nat) :
    (s.returnSegments r n).arbiter = s.arbiter := rfl
@[simp] theorem State.returnSegments_resetPending (s : State) (r : Fin 64) (n : Nat) :
    (s.returnSegments r n).resetPending = s.resetPending := rfl
@[simp] theorem State.returnSegments_lease (s : State) (r : Fin 64) (n : Nat) :
    (s.returnSegments r n).lease = s.lease := rfl
@[simp] theorem State.returnSegments_resetCause (s : State) (r : Fin 64) (n : Nat) :
    (s.returnSegments r n).resetCause = s.resetCause := rfl
@[simp] theorem State.returnSegments_notices (s : State) (r : Fin 64) (n : Nat) :
    (s.returnSegments r n).notices = s.notices := rfl
@[simp] theorem State.returnSegments_resetLine (s : State) (r : Fin 64) (n : Nat) :
    (s.returnSegments r n).resetLine = s.resetLine := rfl
@[simp] theorem State.returnSegments_pending (s : State) (r : Fin 64) (n : Nat) :
    (s.returnSegments r n).pending = s.pending := rfl
@[simp] theorem State.returnSegments_port (s : State) (r : Fin 64) (n : Nat) (k : Fin 4) :
    (s.returnSegments r n).port k = s.port k := rfl

/-! ### `enqueue` changes `queue` alone -/

@[simp] theorem State.enqueue_ports (s : State) (r : Fin 64) (n : Nat) (body : RecordBody) :
    (s.enqueue r n body).ports = s.ports := rfl
@[simp] theorem State.enqueue_routes (s : State) (r : Fin 64) (n : Nat) (body : RecordBody) :
    (s.enqueue r n body).routes = s.routes := rfl
@[simp] theorem State.enqueue_pool (s : State) (r : Fin 64) (n : Nat) (body : RecordBody) :
    (s.enqueue r n body).pool = s.pool := rfl
@[simp] theorem State.enqueue_sender (s : State) (r : Fin 64) (n : Nat) (body : RecordBody) :
    (s.enqueue r n body).sender = s.sender := rfl
@[simp] theorem State.enqueue_link (s : State) (r : Fin 64) (n : Nat) (body : RecordBody) :
    (s.enqueue r n body).link = s.link := rfl
@[simp] theorem State.enqueue_trunkCounters (s : State) (r : Fin 64) (n : Nat) (body : RecordBody) :
    (s.enqueue r n body).trunkCounters = s.trunkCounters := rfl
@[simp] theorem State.enqueue_receiver (s : State) (r : Fin 64) (n : Nat) (body : RecordBody) :
    (s.enqueue r n body).receiver = s.receiver := rfl
@[simp] theorem State.enqueue_transmitter (s : State) (r : Fin 64) (n : Nat) (body : RecordBody) :
    (s.enqueue r n body).transmitter = s.transmitter := rfl
@[simp] theorem State.enqueue_rate (s : State) (r : Fin 64) (n : Nat) (body : RecordBody) :
    (s.enqueue r n body).rate = s.rate := rfl
@[simp] theorem State.enqueue_sourceLocal (s : State) (r : Fin 64) (n : Nat) (body : RecordBody) :
    (s.enqueue r n body).sourceLocal = s.sourceLocal := rfl
@[simp] theorem State.enqueue_sourceRemote (s : State) (r : Fin 64) (n : Nat) (body : RecordBody) :
    (s.enqueue r n body).sourceRemote = s.sourceRemote := rfl
@[simp] theorem State.enqueue_arbiter (s : State) (r : Fin 64) (n : Nat) (body : RecordBody) :
    (s.enqueue r n body).arbiter = s.arbiter := rfl
@[simp] theorem State.enqueue_resetPending (s : State) (r : Fin 64) (n : Nat) (body : RecordBody) :
    (s.enqueue r n body).resetPending = s.resetPending := rfl
@[simp] theorem State.enqueue_lease (s : State) (r : Fin 64) (n : Nat) (body : RecordBody) :
    (s.enqueue r n body).lease = s.lease := rfl
@[simp] theorem State.enqueue_resetCause (s : State) (r : Fin 64) (n : Nat) (body : RecordBody) :
    (s.enqueue r n body).resetCause = s.resetCause := rfl
@[simp] theorem State.enqueue_notices (s : State) (r : Fin 64) (n : Nat) (body : RecordBody) :
    (s.enqueue r n body).notices = s.notices := rfl
@[simp] theorem State.enqueue_resetLine (s : State) (r : Fin 64) (n : Nat) (body : RecordBody) :
    (s.enqueue r n body).resetLine = s.resetLine := rfl
@[simp] theorem State.enqueue_pending (s : State) (r : Fin 64) (n : Nat) (body : RecordBody) :
    (s.enqueue r n body).pending = s.pending := rfl
@[simp] theorem State.enqueue_route (s : State) (r : Fin 64) (n : Nat) (body : RecordBody) (k : Fin 64) :
    (s.enqueue r n body).route k = s.route k := rfl
@[simp] theorem State.enqueue_port (s : State) (r : Fin 64) (n : Nat) (body : RecordBody) (k : Fin 4) :
    (s.enqueue r n body).port k = s.port k := rfl

/-! ### `endStall` changes `sender` alone -/

@[simp] theorem State.endStall_ports (s : State) : s.endStall.ports = s.ports := rfl
@[simp] theorem State.endStall_routes (s : State) : s.endStall.routes = s.routes := rfl
@[simp] theorem State.endStall_pool (s : State) : s.endStall.pool = s.pool := rfl
@[simp] theorem State.endStall_queue (s : State) : s.endStall.queue = s.queue := rfl
@[simp] theorem State.endStall_link (s : State) : s.endStall.link = s.link := rfl
@[simp] theorem State.endStall_trunkCounters (s : State) : s.endStall.trunkCounters = s.trunkCounters := rfl
@[simp] theorem State.endStall_receiver (s : State) : s.endStall.receiver = s.receiver := rfl
@[simp] theorem State.endStall_transmitter (s : State) : s.endStall.transmitter = s.transmitter := rfl
@[simp] theorem State.endStall_rate (s : State) : s.endStall.rate = s.rate := rfl
@[simp] theorem State.endStall_sourceLocal (s : State) : s.endStall.sourceLocal = s.sourceLocal := rfl
@[simp] theorem State.endStall_sourceRemote (s : State) : s.endStall.sourceRemote = s.sourceRemote := rfl
@[simp] theorem State.endStall_arbiter (s : State) : s.endStall.arbiter = s.arbiter := rfl
@[simp] theorem State.endStall_resetPending (s : State) : s.endStall.resetPending = s.resetPending := rfl
@[simp] theorem State.endStall_lease (s : State) : s.endStall.lease = s.lease := rfl
@[simp] theorem State.endStall_resetCause (s : State) : s.endStall.resetCause = s.resetCause := rfl
@[simp] theorem State.endStall_notices (s : State) : s.endStall.notices = s.notices := rfl
@[simp] theorem State.endStall_resetLine (s : State) : s.endStall.resetLine = s.resetLine := rfl
@[simp] theorem State.endStall_pending (s : State) : s.endStall.pending = s.pending := rfl
@[simp] theorem State.endStall_route (s : State) (k : Fin 64) : s.endStall.route k = s.route k := rfl
@[simp] theorem State.endStall_port (s : State) (k : Fin 4) : s.endStall.port k = s.port k := rfl

/-! ### `interrupt` changes `sender` alone -/

@[simp] theorem State.interrupt_ports (s : State) : s.interrupt.ports = s.ports := rfl
@[simp] theorem State.interrupt_routes (s : State) : s.interrupt.routes = s.routes := rfl
@[simp] theorem State.interrupt_pool (s : State) : s.interrupt.pool = s.pool := rfl
@[simp] theorem State.interrupt_queue (s : State) : s.interrupt.queue = s.queue := rfl
@[simp] theorem State.interrupt_link (s : State) : s.interrupt.link = s.link := rfl
@[simp] theorem State.interrupt_trunkCounters (s : State) : s.interrupt.trunkCounters = s.trunkCounters := rfl
@[simp] theorem State.interrupt_receiver (s : State) : s.interrupt.receiver = s.receiver := rfl
@[simp] theorem State.interrupt_transmitter (s : State) : s.interrupt.transmitter = s.transmitter := rfl
@[simp] theorem State.interrupt_rate (s : State) : s.interrupt.rate = s.rate := rfl
@[simp] theorem State.interrupt_sourceLocal (s : State) : s.interrupt.sourceLocal = s.sourceLocal := rfl
@[simp] theorem State.interrupt_sourceRemote (s : State) : s.interrupt.sourceRemote = s.sourceRemote := rfl
@[simp] theorem State.interrupt_arbiter (s : State) : s.interrupt.arbiter = s.arbiter := rfl
@[simp] theorem State.interrupt_resetPending (s : State) : s.interrupt.resetPending = s.resetPending := rfl
@[simp] theorem State.interrupt_lease (s : State) : s.interrupt.lease = s.lease := rfl
@[simp] theorem State.interrupt_resetCause (s : State) : s.interrupt.resetCause = s.resetCause := rfl
@[simp] theorem State.interrupt_notices (s : State) : s.interrupt.notices = s.notices := rfl
@[simp] theorem State.interrupt_resetLine (s : State) : s.interrupt.resetLine = s.resetLine := rfl
@[simp] theorem State.interrupt_pending (s : State) : s.interrupt.pending = s.pending := rfl
@[simp] theorem State.interrupt_route (s : State) (k : Fin 64) : s.interrupt.route k = s.route k := rfl
@[simp] theorem State.interrupt_port (s : State) (k : Fin 4) : s.interrupt.port k = s.port k := rfl

/-! ### `dropLock` changes `sender` alone -/

@[simp] theorem State.dropLock_ports (s : State) : s.dropLock.ports = s.ports := rfl
@[simp] theorem State.dropLock_routes (s : State) : s.dropLock.routes = s.routes := rfl
@[simp] theorem State.dropLock_pool (s : State) : s.dropLock.pool = s.pool := rfl
@[simp] theorem State.dropLock_queue (s : State) : s.dropLock.queue = s.queue := rfl
@[simp] theorem State.dropLock_link (s : State) : s.dropLock.link = s.link := rfl
@[simp] theorem State.dropLock_trunkCounters (s : State) : s.dropLock.trunkCounters = s.trunkCounters := rfl
@[simp] theorem State.dropLock_receiver (s : State) : s.dropLock.receiver = s.receiver := rfl
@[simp] theorem State.dropLock_transmitter (s : State) : s.dropLock.transmitter = s.transmitter := rfl
@[simp] theorem State.dropLock_rate (s : State) : s.dropLock.rate = s.rate := rfl
@[simp] theorem State.dropLock_sourceLocal (s : State) : s.dropLock.sourceLocal = s.sourceLocal := rfl
@[simp] theorem State.dropLock_sourceRemote (s : State) : s.dropLock.sourceRemote = s.sourceRemote := rfl
@[simp] theorem State.dropLock_arbiter (s : State) : s.dropLock.arbiter = s.arbiter := rfl
@[simp] theorem State.dropLock_resetPending (s : State) : s.dropLock.resetPending = s.resetPending := rfl
@[simp] theorem State.dropLock_lease (s : State) : s.dropLock.lease = s.lease := rfl
@[simp] theorem State.dropLock_resetCause (s : State) : s.dropLock.resetCause = s.resetCause := rfl
@[simp] theorem State.dropLock_notices (s : State) : s.dropLock.notices = s.notices := rfl
@[simp] theorem State.dropLock_resetLine (s : State) : s.dropLock.resetLine = s.resetLine := rfl
@[simp] theorem State.dropLock_pending (s : State) : s.dropLock.pending = s.pending := rfl
@[simp] theorem State.dropLock_route (s : State) (k : Fin 64) : s.dropLock.route k = s.route k := rfl
@[simp] theorem State.dropLock_port (s : State) (k : Fin 4) : s.dropLock.port k = s.port k := rfl

/-! ### `enterTraining` changes `link` alone -/

@[simp] theorem State.enterTraining_ports (s : State) : s.enterTraining.ports = s.ports := rfl
@[simp] theorem State.enterTraining_routes (s : State) : s.enterTraining.routes = s.routes := rfl
@[simp] theorem State.enterTraining_pool (s : State) : s.enterTraining.pool = s.pool := rfl
@[simp] theorem State.enterTraining_queue (s : State) : s.enterTraining.queue = s.queue := rfl
@[simp] theorem State.enterTraining_sender (s : State) : s.enterTraining.sender = s.sender := rfl
@[simp] theorem State.enterTraining_trunkCounters (s : State) : s.enterTraining.trunkCounters = s.trunkCounters := rfl
@[simp] theorem State.enterTraining_receiver (s : State) : s.enterTraining.receiver = s.receiver := rfl
@[simp] theorem State.enterTraining_transmitter (s : State) : s.enterTraining.transmitter = s.transmitter := rfl
@[simp] theorem State.enterTraining_rate (s : State) : s.enterTraining.rate = s.rate := rfl
@[simp] theorem State.enterTraining_sourceLocal (s : State) : s.enterTraining.sourceLocal = s.sourceLocal := rfl
@[simp] theorem State.enterTraining_sourceRemote (s : State) : s.enterTraining.sourceRemote = s.sourceRemote := rfl
@[simp] theorem State.enterTraining_arbiter (s : State) : s.enterTraining.arbiter = s.arbiter := rfl
@[simp] theorem State.enterTraining_resetPending (s : State) : s.enterTraining.resetPending = s.resetPending := rfl
@[simp] theorem State.enterTraining_lease (s : State) : s.enterTraining.lease = s.lease := rfl
@[simp] theorem State.enterTraining_resetCause (s : State) : s.enterTraining.resetCause = s.resetCause := rfl
@[simp] theorem State.enterTraining_notices (s : State) : s.enterTraining.notices = s.notices := rfl
@[simp] theorem State.enterTraining_resetLine (s : State) : s.enterTraining.resetLine = s.resetLine := rfl
@[simp] theorem State.enterTraining_pending (s : State) : s.enterTraining.pending = s.pending := rfl
@[simp] theorem State.enterTraining_route (s : State) (k : Fin 64) : s.enterTraining.route k = s.route k := rfl
@[simp] theorem State.enterTraining_port (s : State) (k : Fin 4) : s.enterTraining.port k = s.port k := rfl

/-! ### `enterDown` changes `link` alone -/

@[simp] theorem State.enterDown_ports (s : State) : s.enterDown.ports = s.ports := rfl
@[simp] theorem State.enterDown_routes (s : State) : s.enterDown.routes = s.routes := rfl
@[simp] theorem State.enterDown_pool (s : State) : s.enterDown.pool = s.pool := rfl
@[simp] theorem State.enterDown_queue (s : State) : s.enterDown.queue = s.queue := rfl
@[simp] theorem State.enterDown_sender (s : State) : s.enterDown.sender = s.sender := rfl
@[simp] theorem State.enterDown_trunkCounters (s : State) : s.enterDown.trunkCounters = s.trunkCounters := rfl
@[simp] theorem State.enterDown_receiver (s : State) : s.enterDown.receiver = s.receiver := rfl
@[simp] theorem State.enterDown_transmitter (s : State) : s.enterDown.transmitter = s.transmitter := rfl
@[simp] theorem State.enterDown_rate (s : State) : s.enterDown.rate = s.rate := rfl
@[simp] theorem State.enterDown_sourceLocal (s : State) : s.enterDown.sourceLocal = s.sourceLocal := rfl
@[simp] theorem State.enterDown_sourceRemote (s : State) : s.enterDown.sourceRemote = s.sourceRemote := rfl
@[simp] theorem State.enterDown_arbiter (s : State) : s.enterDown.arbiter = s.arbiter := rfl
@[simp] theorem State.enterDown_resetPending (s : State) : s.enterDown.resetPending = s.resetPending := rfl
@[simp] theorem State.enterDown_lease (s : State) : s.enterDown.lease = s.lease := rfl
@[simp] theorem State.enterDown_resetCause (s : State) : s.enterDown.resetCause = s.resetCause := rfl
@[simp] theorem State.enterDown_notices (s : State) : s.enterDown.notices = s.notices := rfl
@[simp] theorem State.enterDown_resetLine (s : State) : s.enterDown.resetLine = s.resetLine := rfl
@[simp] theorem State.enterDown_pending (s : State) : s.enterDown.pending = s.pending := rfl
@[simp] theorem State.enterDown_route (s : State) (k : Fin 64) : s.enterDown.route k = s.route k := rfl
@[simp] theorem State.enterDown_port (s : State) (k : Fin 4) : s.enterDown.port k = s.port k := rfl

/-! ### `enterHalted` changes `link` alone -/

@[simp] theorem State.enterHalted_ports (s : State) : s.enterHalted.ports = s.ports := rfl
@[simp] theorem State.enterHalted_routes (s : State) : s.enterHalted.routes = s.routes := rfl
@[simp] theorem State.enterHalted_pool (s : State) : s.enterHalted.pool = s.pool := rfl
@[simp] theorem State.enterHalted_queue (s : State) : s.enterHalted.queue = s.queue := rfl
@[simp] theorem State.enterHalted_sender (s : State) : s.enterHalted.sender = s.sender := rfl
@[simp] theorem State.enterHalted_trunkCounters (s : State) : s.enterHalted.trunkCounters = s.trunkCounters := rfl
@[simp] theorem State.enterHalted_receiver (s : State) : s.enterHalted.receiver = s.receiver := rfl
@[simp] theorem State.enterHalted_transmitter (s : State) : s.enterHalted.transmitter = s.transmitter := rfl
@[simp] theorem State.enterHalted_rate (s : State) : s.enterHalted.rate = s.rate := rfl
@[simp] theorem State.enterHalted_sourceLocal (s : State) : s.enterHalted.sourceLocal = s.sourceLocal := rfl
@[simp] theorem State.enterHalted_sourceRemote (s : State) : s.enterHalted.sourceRemote = s.sourceRemote := rfl
@[simp] theorem State.enterHalted_arbiter (s : State) : s.enterHalted.arbiter = s.arbiter := rfl
@[simp] theorem State.enterHalted_resetPending (s : State) : s.enterHalted.resetPending = s.resetPending := rfl
@[simp] theorem State.enterHalted_lease (s : State) : s.enterHalted.lease = s.lease := rfl
@[simp] theorem State.enterHalted_resetCause (s : State) : s.enterHalted.resetCause = s.resetCause := rfl
@[simp] theorem State.enterHalted_notices (s : State) : s.enterHalted.notices = s.notices := rfl
@[simp] theorem State.enterHalted_resetLine (s : State) : s.enterHalted.resetLine = s.resetLine := rfl
@[simp] theorem State.enterHalted_pending (s : State) : s.enterHalted.pending = s.pending := rfl
@[simp] theorem State.enterHalted_route (s : State) (k : Fin 64) : s.enterHalted.route k = s.route k := rfl
@[simp] theorem State.enterHalted_port (s : State) (k : Fin 4) : s.enterHalted.port k = s.port k := rfl

/-! ### `setSource` changes `sourceLocal`, `sourceRemote` alone -/

@[simp] theorem State.setSource_ports (s : State) (src : Source) (x : SourceState) :
    (s.setSource src x).ports = s.ports := by cases src <;> rfl
@[simp] theorem State.setSource_routes (s : State) (src : Source) (x : SourceState) :
    (s.setSource src x).routes = s.routes := by cases src <;> rfl
@[simp] theorem State.setSource_pool (s : State) (src : Source) (x : SourceState) :
    (s.setSource src x).pool = s.pool := by cases src <;> rfl
@[simp] theorem State.setSource_queue (s : State) (src : Source) (x : SourceState) :
    (s.setSource src x).queue = s.queue := by cases src <;> rfl
@[simp] theorem State.setSource_sender (s : State) (src : Source) (x : SourceState) :
    (s.setSource src x).sender = s.sender := by cases src <;> rfl
@[simp] theorem State.setSource_link (s : State) (src : Source) (x : SourceState) :
    (s.setSource src x).link = s.link := by cases src <;> rfl
@[simp] theorem State.setSource_trunkCounters (s : State) (src : Source) (x : SourceState) :
    (s.setSource src x).trunkCounters = s.trunkCounters := by cases src <;> rfl
@[simp] theorem State.setSource_receiver (s : State) (src : Source) (x : SourceState) :
    (s.setSource src x).receiver = s.receiver := by cases src <;> rfl
@[simp] theorem State.setSource_transmitter (s : State) (src : Source) (x : SourceState) :
    (s.setSource src x).transmitter = s.transmitter := by cases src <;> rfl
@[simp] theorem State.setSource_rate (s : State) (src : Source) (x : SourceState) :
    (s.setSource src x).rate = s.rate := by cases src <;> rfl
@[simp] theorem State.setSource_arbiter (s : State) (src : Source) (x : SourceState) :
    (s.setSource src x).arbiter = s.arbiter := by cases src <;> rfl
@[simp] theorem State.setSource_resetPending (s : State) (src : Source) (x : SourceState) :
    (s.setSource src x).resetPending = s.resetPending := by cases src <;> rfl
@[simp] theorem State.setSource_lease (s : State) (src : Source) (x : SourceState) :
    (s.setSource src x).lease = s.lease := by cases src <;> rfl
@[simp] theorem State.setSource_resetCause (s : State) (src : Source) (x : SourceState) :
    (s.setSource src x).resetCause = s.resetCause := by cases src <;> rfl
@[simp] theorem State.setSource_notices (s : State) (src : Source) (x : SourceState) :
    (s.setSource src x).notices = s.notices := by cases src <;> rfl
@[simp] theorem State.setSource_resetLine (s : State) (src : Source) (x : SourceState) :
    (s.setSource src x).resetLine = s.resetLine := by cases src <;> rfl
@[simp] theorem State.setSource_pending (s : State) (src : Source) (x : SourceState) :
    (s.setSource src x).pending = s.pending := by cases src <;> rfl
@[simp] theorem State.setSource_route (s : State) (src : Source) (x : SourceState) (k : Fin 64) :
    (s.setSource src x).route k = s.route k := by cases src <;> rfl
@[simp] theorem State.setSource_port (s : State) (src : Source) (x : SourceState) (k : Fin 4) :
    (s.setSource src x).port k = s.port k := by cases src <;> rfl

/-! ### `modifySource` changes `sourceLocal`, `sourceRemote` alone -/

@[simp] theorem State.modifySource_ports (s : State) (src : Source) (f : SourceState → SourceState) :
    (s.modifySource src f).ports = s.ports := by cases src <;> rfl
@[simp] theorem State.modifySource_routes (s : State) (src : Source) (f : SourceState → SourceState) :
    (s.modifySource src f).routes = s.routes := by cases src <;> rfl
@[simp] theorem State.modifySource_pool (s : State) (src : Source) (f : SourceState → SourceState) :
    (s.modifySource src f).pool = s.pool := by cases src <;> rfl
@[simp] theorem State.modifySource_queue (s : State) (src : Source) (f : SourceState → SourceState) :
    (s.modifySource src f).queue = s.queue := by cases src <;> rfl
@[simp] theorem State.modifySource_sender (s : State) (src : Source) (f : SourceState → SourceState) :
    (s.modifySource src f).sender = s.sender := by cases src <;> rfl
@[simp] theorem State.modifySource_link (s : State) (src : Source) (f : SourceState → SourceState) :
    (s.modifySource src f).link = s.link := by cases src <;> rfl
@[simp] theorem State.modifySource_trunkCounters (s : State) (src : Source) (f : SourceState → SourceState) :
    (s.modifySource src f).trunkCounters = s.trunkCounters := by cases src <;> rfl
@[simp] theorem State.modifySource_receiver (s : State) (src : Source) (f : SourceState → SourceState) :
    (s.modifySource src f).receiver = s.receiver := by cases src <;> rfl
@[simp] theorem State.modifySource_transmitter (s : State) (src : Source) (f : SourceState → SourceState) :
    (s.modifySource src f).transmitter = s.transmitter := by cases src <;> rfl
@[simp] theorem State.modifySource_rate (s : State) (src : Source) (f : SourceState → SourceState) :
    (s.modifySource src f).rate = s.rate := by cases src <;> rfl
@[simp] theorem State.modifySource_arbiter (s : State) (src : Source) (f : SourceState → SourceState) :
    (s.modifySource src f).arbiter = s.arbiter := by cases src <;> rfl
@[simp] theorem State.modifySource_resetPending (s : State) (src : Source) (f : SourceState → SourceState) :
    (s.modifySource src f).resetPending = s.resetPending := by cases src <;> rfl
@[simp] theorem State.modifySource_lease (s : State) (src : Source) (f : SourceState → SourceState) :
    (s.modifySource src f).lease = s.lease := by cases src <;> rfl
@[simp] theorem State.modifySource_resetCause (s : State) (src : Source) (f : SourceState → SourceState) :
    (s.modifySource src f).resetCause = s.resetCause := by cases src <;> rfl
@[simp] theorem State.modifySource_notices (s : State) (src : Source) (f : SourceState → SourceState) :
    (s.modifySource src f).notices = s.notices := by cases src <;> rfl
@[simp] theorem State.modifySource_resetLine (s : State) (src : Source) (f : SourceState → SourceState) :
    (s.modifySource src f).resetLine = s.resetLine := by cases src <;> rfl
@[simp] theorem State.modifySource_pending (s : State) (src : Source) (f : SourceState → SourceState) :
    (s.modifySource src f).pending = s.pending := by cases src <;> rfl
@[simp] theorem State.modifySource_route (s : State) (src : Source) (f : SourceState → SourceState) (k : Fin 64) :
    (s.modifySource src f).route k = s.route k := by cases src <;> rfl
@[simp] theorem State.modifySource_port (s : State) (src : Source) (f : SourceState → SourceState) (k : Fin 4) :
    (s.modifySource src f).port k = s.port k := by cases src <;> rfl

/-! ### `countSource` changes `sourceLocal`, `sourceRemote` alone -/

@[simp] theorem State.countSource_ports (s : State) (src : Source) (f : SourceCounters → SourceCounters) :
    (s.countSource src f).ports = s.ports := by cases src <;> rfl
@[simp] theorem State.countSource_routes (s : State) (src : Source) (f : SourceCounters → SourceCounters) :
    (s.countSource src f).routes = s.routes := by cases src <;> rfl
@[simp] theorem State.countSource_pool (s : State) (src : Source) (f : SourceCounters → SourceCounters) :
    (s.countSource src f).pool = s.pool := by cases src <;> rfl
@[simp] theorem State.countSource_queue (s : State) (src : Source) (f : SourceCounters → SourceCounters) :
    (s.countSource src f).queue = s.queue := by cases src <;> rfl
@[simp] theorem State.countSource_sender (s : State) (src : Source) (f : SourceCounters → SourceCounters) :
    (s.countSource src f).sender = s.sender := by cases src <;> rfl
@[simp] theorem State.countSource_link (s : State) (src : Source) (f : SourceCounters → SourceCounters) :
    (s.countSource src f).link = s.link := by cases src <;> rfl
@[simp] theorem State.countSource_trunkCounters (s : State) (src : Source) (f : SourceCounters → SourceCounters) :
    (s.countSource src f).trunkCounters = s.trunkCounters := by cases src <;> rfl
@[simp] theorem State.countSource_receiver (s : State) (src : Source) (f : SourceCounters → SourceCounters) :
    (s.countSource src f).receiver = s.receiver := by cases src <;> rfl
@[simp] theorem State.countSource_transmitter (s : State) (src : Source) (f : SourceCounters → SourceCounters) :
    (s.countSource src f).transmitter = s.transmitter := by cases src <;> rfl
@[simp] theorem State.countSource_rate (s : State) (src : Source) (f : SourceCounters → SourceCounters) :
    (s.countSource src f).rate = s.rate := by cases src <;> rfl
@[simp] theorem State.countSource_arbiter (s : State) (src : Source) (f : SourceCounters → SourceCounters) :
    (s.countSource src f).arbiter = s.arbiter := by cases src <;> rfl
@[simp] theorem State.countSource_resetPending (s : State) (src : Source) (f : SourceCounters → SourceCounters) :
    (s.countSource src f).resetPending = s.resetPending := by cases src <;> rfl
@[simp] theorem State.countSource_lease (s : State) (src : Source) (f : SourceCounters → SourceCounters) :
    (s.countSource src f).lease = s.lease := by cases src <;> rfl
@[simp] theorem State.countSource_resetCause (s : State) (src : Source) (f : SourceCounters → SourceCounters) :
    (s.countSource src f).resetCause = s.resetCause := by cases src <;> rfl
@[simp] theorem State.countSource_notices (s : State) (src : Source) (f : SourceCounters → SourceCounters) :
    (s.countSource src f).notices = s.notices := by cases src <;> rfl
@[simp] theorem State.countSource_resetLine (s : State) (src : Source) (f : SourceCounters → SourceCounters) :
    (s.countSource src f).resetLine = s.resetLine := by cases src <;> rfl
@[simp] theorem State.countSource_pending (s : State) (src : Source) (f : SourceCounters → SourceCounters) :
    (s.countSource src f).pending = s.pending := by cases src <;> rfl
@[simp] theorem State.countSource_route (s : State) (src : Source) (f : SourceCounters → SourceCounters) (k : Fin 64) :
    (s.countSource src f).route k = s.route k := by cases src <;> rfl
@[simp] theorem State.countSource_port (s : State) (src : Source) (f : SourceCounters → SourceCounters) (k : Fin 4) :
    (s.countSource src f).port k = s.port k := by cases src <;> rfl

/-! ### `takeRecord` changes `sourceLocal`, `sourceRemote`, `arbiter` alone -/

@[simp] theorem State.takeRecord_ports (s : State) (src : Source) :
    (s.takeRecord src).ports = s.ports := by cases src <;> rfl
@[simp] theorem State.takeRecord_routes (s : State) (src : Source) :
    (s.takeRecord src).routes = s.routes := by cases src <;> rfl
@[simp] theorem State.takeRecord_pool (s : State) (src : Source) :
    (s.takeRecord src).pool = s.pool := by cases src <;> rfl
@[simp] theorem State.takeRecord_queue (s : State) (src : Source) :
    (s.takeRecord src).queue = s.queue := by cases src <;> rfl
@[simp] theorem State.takeRecord_sender (s : State) (src : Source) :
    (s.takeRecord src).sender = s.sender := by cases src <;> rfl
@[simp] theorem State.takeRecord_link (s : State) (src : Source) :
    (s.takeRecord src).link = s.link := by cases src <;> rfl
@[simp] theorem State.takeRecord_trunkCounters (s : State) (src : Source) :
    (s.takeRecord src).trunkCounters = s.trunkCounters := by cases src <;> rfl
@[simp] theorem State.takeRecord_receiver (s : State) (src : Source) :
    (s.takeRecord src).receiver = s.receiver := by cases src <;> rfl
@[simp] theorem State.takeRecord_transmitter (s : State) (src : Source) :
    (s.takeRecord src).transmitter = s.transmitter := by cases src <;> rfl
@[simp] theorem State.takeRecord_rate (s : State) (src : Source) :
    (s.takeRecord src).rate = s.rate := by cases src <;> rfl
@[simp] theorem State.takeRecord_resetPending (s : State) (src : Source) :
    (s.takeRecord src).resetPending = s.resetPending := by cases src <;> rfl
@[simp] theorem State.takeRecord_lease (s : State) (src : Source) :
    (s.takeRecord src).lease = s.lease := by cases src <;> rfl
@[simp] theorem State.takeRecord_resetCause (s : State) (src : Source) :
    (s.takeRecord src).resetCause = s.resetCause := by cases src <;> rfl
@[simp] theorem State.takeRecord_notices (s : State) (src : Source) :
    (s.takeRecord src).notices = s.notices := by cases src <;> rfl
@[simp] theorem State.takeRecord_resetLine (s : State) (src : Source) :
    (s.takeRecord src).resetLine = s.resetLine := by cases src <;> rfl
@[simp] theorem State.takeRecord_pending (s : State) (src : Source) :
    (s.takeRecord src).pending = s.pending := by cases src <;> rfl
@[simp] theorem State.takeRecord_route (s : State) (src : Source) (k : Fin 64) :
    (s.takeRecord src).route k = s.route k := by cases src <;> rfl
@[simp] theorem State.takeRecord_port (s : State) (src : Source) (k : Fin 4) :
    (s.takeRecord src).port k = s.port k := by cases src <;> rfl

/-! ### `restartLease` changes `lease` alone -/

@[simp] theorem State.restartLease_ports (s : State) (src : Source) :
    (s.restartLease src).ports = s.ports := by unfold State.restartLease; split <;> rfl
@[simp] theorem State.restartLease_routes (s : State) (src : Source) :
    (s.restartLease src).routes = s.routes := by unfold State.restartLease; split <;> rfl
@[simp] theorem State.restartLease_pool (s : State) (src : Source) :
    (s.restartLease src).pool = s.pool := by unfold State.restartLease; split <;> rfl
@[simp] theorem State.restartLease_queue (s : State) (src : Source) :
    (s.restartLease src).queue = s.queue := by unfold State.restartLease; split <;> rfl
@[simp] theorem State.restartLease_sender (s : State) (src : Source) :
    (s.restartLease src).sender = s.sender := by unfold State.restartLease; split <;> rfl
@[simp] theorem State.restartLease_link (s : State) (src : Source) :
    (s.restartLease src).link = s.link := by unfold State.restartLease; split <;> rfl
@[simp] theorem State.restartLease_trunkCounters (s : State) (src : Source) :
    (s.restartLease src).trunkCounters = s.trunkCounters := by unfold State.restartLease; split <;> rfl
@[simp] theorem State.restartLease_receiver (s : State) (src : Source) :
    (s.restartLease src).receiver = s.receiver := by unfold State.restartLease; split <;> rfl
@[simp] theorem State.restartLease_transmitter (s : State) (src : Source) :
    (s.restartLease src).transmitter = s.transmitter := by unfold State.restartLease; split <;> rfl
@[simp] theorem State.restartLease_rate (s : State) (src : Source) :
    (s.restartLease src).rate = s.rate := by unfold State.restartLease; split <;> rfl
@[simp] theorem State.restartLease_sourceLocal (s : State) (src : Source) :
    (s.restartLease src).sourceLocal = s.sourceLocal := by unfold State.restartLease; split <;> rfl
@[simp] theorem State.restartLease_sourceRemote (s : State) (src : Source) :
    (s.restartLease src).sourceRemote = s.sourceRemote := by unfold State.restartLease; split <;> rfl
@[simp] theorem State.restartLease_arbiter (s : State) (src : Source) :
    (s.restartLease src).arbiter = s.arbiter := by unfold State.restartLease; split <;> rfl
@[simp] theorem State.restartLease_resetPending (s : State) (src : Source) :
    (s.restartLease src).resetPending = s.resetPending := by unfold State.restartLease; split <;> rfl
@[simp] theorem State.restartLease_resetCause (s : State) (src : Source) :
    (s.restartLease src).resetCause = s.resetCause := by unfold State.restartLease; split <;> rfl
@[simp] theorem State.restartLease_notices (s : State) (src : Source) :
    (s.restartLease src).notices = s.notices := by unfold State.restartLease; split <;> rfl
@[simp] theorem State.restartLease_resetLine (s : State) (src : Source) :
    (s.restartLease src).resetLine = s.resetLine := by unfold State.restartLease; split <;> rfl
@[simp] theorem State.restartLease_pending (s : State) (src : Source) :
    (s.restartLease src).pending = s.pending := by unfold State.restartLease; split <;> rfl
@[simp] theorem State.restartLease_route (s : State) (src : Source) (k : Fin 64) :
    (s.restartLease src).route k = s.route k := by unfold State.restartLease; split <;> rfl
@[simp] theorem State.restartLease_port (s : State) (src : Source) (k : Fin 4) :
    (s.restartLease src).port k = s.port k := by unfold State.restartLease; split <;> rfl
@[simp] theorem State.restartLease_source (s : State) (src : Source) (k : Source) :
    (s.restartLease src).source k = s.source k := by unfold State.restartLease; split <;> rfl
@[simp] theorem State.setRoute_source (s : State) (r : Fin 64) (x : Route) (k : Source) :
    (s.setRoute r x).source k = s.source k := rfl
@[simp] theorem State.modifyRoute_source (s : State) (r : Fin 64) (f : Route → Route) (k : Source) :
    (s.modifyRoute r f).source k = s.source k := rfl
@[simp] theorem State.countRoute_source (s : State) (r : Fin 64) (f : RouteCounters → RouteCounters) (k : Source) :
    (s.countRoute r f).source k = s.source k := rfl
@[simp] theorem State.setAssembly_source (s : State) (r : Fin 64) (a : Assembly) (k : Source) :
    (s.setAssembly r a).source k = s.source k := rfl
@[simp] theorem State.stopIdleTimer_source (s : State) (r : Fin 64) (k : Source) :
    (s.stopIdleTimer r).source k = s.source k := rfl
@[simp] theorem State.setPort_source (s : State) (p : Fin 4) (x : Port) (k : Source) :
    (s.setPort p x).source k = s.source k := rfl
@[simp] theorem State.modifyPort_source (s : State) (p : Fin 4) (f : Port → Port) (k : Source) :
    (s.modifyPort p f).source k = s.source k := rfl
@[simp] theorem State.countPort_source (s : State) (p : Fin 4) (f : PortCounters → PortCounters) (k : Source) :
    (s.countPort p f).source k = s.source k := rfl
@[simp] theorem State.countTrunk_source (s : State) (f : TrunkCounters → TrunkCounters) (k : Source) :
    (s.countTrunk f).source k = s.source k := rfl
@[simp] theorem State.raise_source (s : State) (info : NoticeInfo) (k : Source) :
    (s.raise info).source k = s.source k := rfl
@[simp] theorem State.takeDescriptors_source (s : State) (n : Nat) (k : Source) :
    (s.takeDescriptors n).source k = s.source k := rfl
@[simp] theorem State.returnDescriptor_source (s : State) (k : Source) :
    s.returnDescriptor.source k = s.source k := rfl
@[simp] theorem State.takeSegments_source (s : State) (r : Fin 64) (n : Nat) (k : Source) :
    (s.takeSegments r n).source k = s.source k := rfl
@[simp] theorem State.returnSegments_source (s : State) (r : Fin 64) (n : Nat) (k : Source) :
    (s.returnSegments r n).source k = s.source k := rfl
@[simp] theorem State.enqueue_source (s : State) (r : Fin 64) (n : Nat) (body : RecordBody) (k : Source) :
    (s.enqueue r n body).source k = s.source k := rfl
@[simp] theorem State.endStall_source (s : State) (k : Source) :
    s.endStall.source k = s.source k := rfl
@[simp] theorem State.interrupt_source (s : State) (k : Source) :
    s.interrupt.source k = s.source k := rfl
@[simp] theorem State.dropLock_source (s : State) (k : Source) :
    s.dropLock.source k = s.source k := rfl
@[simp] theorem State.enterTraining_source (s : State) (k : Source) :
    s.enterTraining.source k = s.source k := rfl
@[simp] theorem State.enterDown_source (s : State) (k : Source) :
    s.enterDown.source k = s.source k := rfl
@[simp] theorem State.enterHalted_source (s : State) (k : Source) :
    s.enterHalted.source k = s.source k := rfl

/-! ## The field an update changes -/

@[simp] theorem State.source_countSource_self (s : State) (src : Source) (f : SourceCounters → SourceCounters) :
    (s.countSource src f).source src = { s.source src with counters := f (s.source src).counters } :=
  s.source_modifySource_self src _
@[simp] theorem State.source_takeRecord_self (s : State) (src : Source) :
    (s.takeRecord src).source src = { s.source src with inbox := none } := by cases src <;> rfl
@[simp] theorem State.takeRecord_arbiter (s : State) (src : Source) : (s.takeRecord src).arbiter = some src := rfl
theorem State.source_countSource_ne (s : State) {src k : Source} (f : SourceCounters → SourceCounters)
    (h : k ≠ src) : (s.countSource src f).source k = s.source k := s.source_modifySource_ne _ h
@[simp] theorem State.raise_notices (s : State) (info : NoticeInfo) :
    (s.raise info).notices = s.notices.raise info := rfl
@[simp] theorem State.enqueue_queue (s : State) (r : Fin 64) (n : Nat) (body : RecordBody) :
    (s.enqueue r n body).queue = s.queue ++
      [{ route := r, trunkChannel := (s.route r).config.trunkChannel, segments := n, body }] := rfl
@[simp] theorem State.countTrunk_trunkCounters (s : State) (f : TrunkCounters → TrunkCounters) :
    (s.countTrunk f).trunkCounters = f s.trunkCounters := rfl
@[simp] theorem State.takeDescriptors_pool (s : State) (n : Nat) :
    (s.takeDescriptors n).pool =
      { s.pool with
        freeDescriptors := s.pool.freeDescriptors - n
        descriptorLowMark := min s.pool.descriptorLowMark (s.pool.freeDescriptors - n) } := rfl
@[simp] theorem State.returnDescriptor_pool (s : State) :
    s.returnDescriptor.pool = { s.pool with freeDescriptors := s.pool.freeDescriptors + 1 } := rfl
@[simp] theorem State.takeSegments_pool (s : State) (r : Fin 64) (n : Nat) :
    (s.takeSegments r n).pool =
      { s.pool with
        freeSegments := s.pool.freeSegments - n
        segmentLowMark := min s.pool.segmentLowMark (s.pool.freeSegments - n) } := rfl
@[simp] theorem State.returnSegments_pool (s : State) (r : Fin 64) (n : Nat) :
    (s.returnSegments r n).pool = { s.pool with freeSegments := s.pool.freeSegments + n } := rfl
@[simp] theorem State.takeSegments_routes (s : State) (r : Fin 64) (n : Nat) :
    (s.takeSegments r n).routes =
      (s.modifyRoute r fun x => { x with heldSegments := x.heldSegments + n }).routes := rfl
@[simp] theorem State.returnSegments_routes (s : State) (r : Fin 64) (n : Nat) :
    (s.returnSegments r n).routes =
      (s.modifyRoute r fun x => { x with heldSegments := x.heldSegments - n }).routes := rfl
@[simp] theorem State.route_setAssembly_self (s : State) (r : Fin 64) (a : Assembly) :
    (s.setAssembly r a).route r = { s.route r with assembly := a } := s.route_modifyRoute_self r _
@[simp] theorem State.route_stopIdleTimer_self (s : State) (r : Fin 64) :
    (s.stopIdleTimer r).route r = { s.route r with idleTimer := .stopped } := s.route_modifyRoute_self r _
@[simp] theorem State.route_countRoute_self (s : State) (r : Fin 64) (f : RouteCounters → RouteCounters) :
    (s.countRoute r f).route r = { s.route r with counters := f (s.route r).counters } :=
  s.route_modifyRoute_self r _
@[simp] theorem State.route_takeSegments_self (s : State) (r : Fin 64) (n : Nat) :
    (s.takeSegments r n).route r = { s.route r with heldSegments := (s.route r).heldSegments + n } :=
  s.route_modifyRoute_self r fun x => { x with heldSegments := x.heldSegments + n }
@[simp] theorem State.route_returnSegments_self (s : State) (r : Fin 64) (n : Nat) :
    (s.returnSegments r n).route r = { s.route r with heldSegments := (s.route r).heldSegments - n } :=
  s.route_modifyRoute_self r fun x => { x with heldSegments := x.heldSegments - n }
@[simp] theorem State.port_countPort_self (s : State) (p : Fin 4) (f : PortCounters → PortCounters) :
    (s.countPort p f).port p = { s.port p with counters := f (s.port p).counters } := s.port_modifyPort_self p _

theorem State.route_setAssembly_ne (s : State) {r k : Fin 64} (a : Assembly) (h : k ≠ r) :
    (s.setAssembly r a).route k = s.route k := s.route_modifyRoute_ne _ h
theorem State.route_stopIdleTimer_ne (s : State) {r k : Fin 64} (h : k ≠ r) :
    (s.stopIdleTimer r).route k = s.route k := s.route_modifyRoute_ne _ h
theorem State.route_countRoute_ne (s : State) {r k : Fin 64} (f : RouteCounters → RouteCounters) (h : k ≠ r) :
    (s.countRoute r f).route k = s.route k := s.route_modifyRoute_ne _ h
theorem State.route_takeSegments_ne (s : State) {r k : Fin 64} (n : Nat) (h : k ≠ r) :
    (s.takeSegments r n).route k = s.route k :=
  s.route_modifyRoute_ne (fun x => { x with heldSegments := x.heldSegments + n }) h
theorem State.route_returnSegments_ne (s : State) {r k : Fin 64} (n : Nat) (h : k ≠ r) :
    (s.returnSegments r n).route k = s.route k :=
  s.route_modifyRoute_ne (fun x => { x with heldSegments := x.heldSegments - n }) h
theorem State.port_countPort_ne (s : State) {p k : Fin 4} (f : PortCounters → PortCounters) (h : k ≠ p) :
    (s.countPort p f).port k = s.port k := s.port_modifyPort_ne _ h

end Sys2Proof.Machine
end

