-- ==== Sys2Proof/Laws/Frames.lean ====
section
/-! SUPPORT. The algebra of `SameBut`, and for each shared operation the parts of the state it can change. A proof
reads an unchanged field off such a frame with `SameBut.link`, `SameBut.queue` and so on. -/

namespace Sys2Proof.Machine

/-! ## The algebra of frames -/

theorem State.Agree.refl (s : State) (piece : Piece) : s.Agree s piece := by cases piece <;> rfl

theorem State.Agree.trans {s t u : State} {piece : Piece} (h : s.Agree t piece) (k : t.Agree u piece) :
    s.Agree u piece := by
  cases piece <;> exact Eq.trans k h

theorem SameBut.refl (s : State) (changed : List Piece) : SameBut s s changed := fun piece _ => .refl s piece

theorem SameBut.trans {s t u : State} {changed : List Piece} (h : SameBut s t changed) (k : SameBut t u changed) :
    SameBut s u changed := fun piece hp => (h piece hp).trans (k piece hp)

theorem SameBut.mono {s t : State} {changed more : List Piece} (h : SameBut s t changed)
    (sub : ∀ piece ∈ changed, piece ∈ more) : SameBut s t more :=
  fun piece hp => h piece fun hc => hp (sub piece hc)

section Fields
variable {s t : State} {changed : List Piece}

theorem SameBut.ports (h : SameBut s t changed) (n : Piece.ports ∉ changed := by decide) : t.ports = s.ports :=
  h .ports n
theorem SameBut.routes (h : SameBut s t changed) (n : Piece.routes ∉ changed := by decide) : t.routes = s.routes :=
  h .routes n
theorem SameBut.pool (h : SameBut s t changed) (n : Piece.pool ∉ changed := by decide) : t.pool = s.pool :=
  h .pool n
theorem SameBut.queue (h : SameBut s t changed) (n : Piece.queue ∉ changed := by decide) : t.queue = s.queue :=
  h .queue n
theorem SameBut.sender (h : SameBut s t changed) (n : Piece.sender ∉ changed := by decide) : t.sender = s.sender :=
  h .sender n
theorem SameBut.link (h : SameBut s t changed) (n : Piece.link ∉ changed := by decide) : t.link = s.link :=
  h .link n
theorem SameBut.trunkCounters (h : SameBut s t changed) (n : Piece.trunkCounters ∉ changed := by decide) :
    t.trunkCounters = s.trunkCounters := h .trunkCounters n
theorem SameBut.receiver (h : SameBut s t changed) (n : Piece.receiver ∉ changed := by decide) :
    t.receiver = s.receiver := h .receiver n
theorem SameBut.transmitter (h : SameBut s t changed) (n : Piece.transmitter ∉ changed := by decide) :
    t.transmitter = s.transmitter := h .transmitter n
theorem SameBut.sourceLocal (h : SameBut s t changed) (n : Piece.sourceLocal ∉ changed := by decide) :
    t.sourceLocal = s.sourceLocal := h .sourceLocal n
theorem SameBut.sourceRemote (h : SameBut s t changed) (n : Piece.sourceRemote ∉ changed := by decide) :
    t.sourceRemote = s.sourceRemote := h .sourceRemote n
theorem SameBut.resetPending (h : SameBut s t changed) (n : Piece.resetPending ∉ changed := by decide) :
    t.resetPending = s.resetPending := h .resetPending n
theorem SameBut.lease (h : SameBut s t changed) (n : Piece.lease ∉ changed := by decide) : t.lease = s.lease :=
  h .lease n
theorem SameBut.notices (h : SameBut s t changed) (n : Piece.notices ∉ changed := by decide) :
    t.notices = s.notices := h .notices n
theorem SameBut.resetLine (h : SameBut s t changed) (n : Piece.resetLine ∉ changed := by decide) :
    t.resetLine = s.resetLine := h .resetLine n
theorem SameBut.pending (h : SameBut s t changed) (n : Piece.pending ∉ changed := by decide) :
    t.pending = s.pending := h .pending n
theorem SameBut.route (h : SameBut s t changed) (r : Fin 64) (n : Piece.routes ∉ changed := by decide) :
    t.route r = s.route r := State.route_congr (h.routes n) r
theorem SameBut.port (h : SameBut s t changed) (p : Fin 4) (n : Piece.ports ∉ changed := by decide) :
    t.port p = s.port p := State.port_congr (h.ports n) p

end Fields

/-! ## Plain updates -/

section Plain
variable (s : State)

theorem setRoute_frame (r : Fin 64) (x : Route) : SameBut s (s.setRoute r x) [.routes] := by
  intro piece hp; cases piece <;> first | rfl | exact absurd (by decide) hp
theorem modifyRoute_frame (r : Fin 64) (f : Route → Route) : SameBut s (s.modifyRoute r f) [.routes] :=
  setRoute_frame s r _
theorem countRoute_frame (r : Fin 64) (f : RouteCounters → RouteCounters) :
    SameBut s (s.countRoute r f) [.routes] := setRoute_frame s r _
theorem setAssembly_frame (r : Fin 64) (a : Assembly) : SameBut s (s.setAssembly r a) [.routes] :=
  setRoute_frame s r _
theorem stopIdleTimer_frame (r : Fin 64) : SameBut s (s.stopIdleTimer r) [.routes] := setRoute_frame s r _
theorem setPort_frame (p : Fin 4) (x : Port) : SameBut s (s.setPort p x) [.ports] := by
  intro piece hp; cases piece <;> first | rfl | exact absurd (by decide) hp
theorem modifyPort_frame (p : Fin 4) (f : Port → Port) : SameBut s (s.modifyPort p f) [.ports] :=
  setPort_frame s p _
theorem countPort_frame (p : Fin 4) (f : PortCounters → PortCounters) : SameBut s (s.countPort p f) [.ports] :=
  setPort_frame s p _
theorem countTrunk_frame (f : TrunkCounters → TrunkCounters) : SameBut s (s.countTrunk f) [.trunkCounters] := by
  intro piece hp; cases piece <;> first | rfl | exact absurd (by decide) hp
theorem raise_frame (info : NoticeInfo) : SameBut s (s.raise info) [.notices] := by
  intro piece hp; cases piece <;> first | rfl | exact absurd (by decide) hp
theorem takeDescriptors_frame (n : Nat) : SameBut s (s.takeDescriptors n) [.pool] := by
  intro piece hp; cases piece <;> first | rfl | exact absurd (by decide) hp
theorem returnDescriptor_frame : SameBut s s.returnDescriptor [.pool] := by
  intro piece hp; cases piece <;> first | rfl | exact absurd (by decide) hp
theorem takeSegments_frame (r : Fin 64) (n : Nat) : SameBut s (s.takeSegments r n) [.routes, .pool] := by
  intro piece hp; cases piece <;> first | rfl | exact absurd (by decide) hp
theorem returnSegments_frame (r : Fin 64) (n : Nat) : SameBut s (s.returnSegments r n) [.routes, .pool] := by
  intro piece hp; cases piece <;> first | rfl | exact absurd (by decide) hp
theorem enqueue_frame (r : Fin 64) (n : Nat) (body : RecordBody) : SameBut s (s.enqueue r n body) [.queue] := by
  intro piece hp; cases piece <;> first | rfl | exact absurd (by decide) hp
theorem setSource_frame (src : Source) (x : SourceState) : SameBut s (s.setSource src x) [src.piece] := by
  intro piece hp; cases src <;> cases piece <;> first | rfl | exact absurd (by decide) hp
theorem modifySource_frame (src : Source) (f : SourceState → SourceState) :
    SameBut s (s.modifySource src f) [src.piece] := setSource_frame s src _
theorem countSource_frame (src : Source) (f : SourceCounters → SourceCounters) :
    SameBut s (s.countSource src f) [src.piece] := setSource_frame s src _
theorem dropLock_frame : SameBut s s.dropLock [.sender] := by
  intro piece hp; cases piece <;> first | rfl | exact absurd (by decide) hp
theorem enterTraining_frame : SameBut s s.enterTraining [.link] := by
  intro piece hp; cases piece <;> first | rfl | exact absurd (by decide) hp
theorem enterDown_frame : SameBut s s.enterDown [.link] := by
  intro piece hp; cases piece <;> first | rfl | exact absurd (by decide) hp
theorem enterHalted_frame : SameBut s s.enterHalted [.link] := by
  intro piece hp; cases piece <;> first | rfl | exact absurd (by decide) hp
theorem takeRecord_frame (src : Source) : SameBut s (s.takeRecord src) [src.piece, .arbiter] := by
  intro piece hp; cases src <;> cases piece <;> first | rfl | exact absurd (by decide) hp
theorem restartLease_frame (src : Source) : SameBut s (s.restartLease src) [.lease] := by
  intro piece hp
  unfold State.restartLease
  split
  · cases piece <;> first | rfl | exact absurd (by decide) hp
  · exact .refl s piece

end Plain

/-! ## The end of an event -/

section Finish
variable (s : State)

theorem startControlPort_frame : SameBut s s.startControlPort [.transmitter] := by
  intro piece hp
  unfold State.startControlPort
  repeat' split
  all_goals cases piece <;> first | rfl | exact absurd (by decide) hp

theorem startStream_frame : SameBut s s.startStream [.sender, .trunkCounters] := by
  intro piece hp
  unfold State.startStream
  repeat' split
  all_goals cases piece <;> first | rfl | exact absurd (by decide) hp

theorem startSender_frame : SameBut s s.startSender [.sender, .trunkCounters] := by
  intro piece hp
  unfold State.startSender
  repeat' split
  all_goals first
    | exact startStream_frame s piece hp
    | (cases piece <;> first | rfl | exact absurd (by decide) hp)

theorem followStall_frame : SameBut s s.followStall [.sender] := by
  intro piece hp
  unfold State.followStall
  repeat' split
  all_goals cases piece <;> first | rfl | exact absurd (by decide) hp

/-- The end of an event starts transmissions and follows the stall condition; nothing else. -/
theorem finish_frame : SameBut s s.finish [.transmitter, .sender, .trunkCounters] :=
  (((startControlPort_frame s).mono (by decide)).trans ((startSender_frame _).mono (by decide))).trans
    ((followStall_frame _).mono (by decide))

end Finish

/-! ## Gates, frames and lines -/

section Frames
variable (s : State) (r : Fin 64)

theorem freeLine_frame : SameBut s (s.freeLine r) [.routes, .pool] := by
  unfold State.freeLine
  split
  · exact (((returnSegments_frame s r _)).trans ((returnDescriptor_frame _).mono (by decide))).trans
      ((setAssembly_frame _ r _).mono (by decide))
  · exact .refl s _

theorem shutGate_frame (reason : ShutReason) (frame : Option Nat) :
    SameBut s (s.shutGate r reason frame) [.routes, .notices] := by
  unfold State.shutGate
  split
  all_goals first
    | exact .refl s _
    | exact ((modifyRoute_frame s r _).mono (by decide)).trans ((raise_frame _ _).mono (by decide))

theorem frameEndStep_frame (n : Nat) : SameBut s (s.frameEndStep r n) [.routes, .notices] := by
  unfold State.frameEndStep
  split
  all_goals first
    | exact shutGate_frame s r _ _
    | exact .refl s _

theorem forceGate_frame : SameBut s (s.forceGate r) [.routes] := by
  unfold State.forceGate
  split
  · exact modifyRoute_frame s r _
  · exact .refl s _

theorem fireHoldPoint_frame (n : Nat) (h : HoldPoint) :
    SameBut s (s.fireHoldPoint r n h) [.routes, .notices] :=
  ((modifyRoute_frame s r _).mono (by decide)).trans ((raise_frame _ _).mono (by decide))

theorem abortGateStep_frame (reason : AbortReason) (n : Nat) :
    SameBut s (s.abortGateStep r reason n) [.routes, .notices] := by
  unfold State.abortGateStep
  split
  · exact shutGate_frame s r _ _
  · exact .refl s _
  · exact frameEndStep_frame s r n

/-- An abort changes routes, pool, queue and notices alone. -/
theorem abort_frame (reason : AbortReason) :
    SameBut s (s.abort r reason) [.routes, .pool, .queue, .notices] := by
  unfold State.abort
  split
  · exact ((((((freeLine_frame s r).mono (by decide)).trans ((enqueue_frame _ r _ _).mono (by decide))).trans
      ((countRoute_frame _ r _).mono (by decide))).trans ((raise_frame _ _).mono (by decide))).trans
      ((setAssembly_frame _ r _).mono (by decide))).trans (((stopIdleTimer_frame _ r).mono (by decide)).trans
      ((abortGateStep_frame _ r _ _).mono (by decide)))
  · exact .refl s _

theorem endIngressFrame_frame (reason : AbortReason) :
    SameBut s (s.endIngressFrame r reason) [.routes, .pool, .queue, .notices] := by
  unfold State.endIngressFrame
  split
  · exact abort_frame s r reason
  · exact ((setAssembly_frame s r _).mono (by decide)).trans ((stopIdleTimer_frame _ r).mono (by decide))
  · exact .refl s _

theorem visitRoutes_frame (p : Fin 4) (reason : AbortReason) :
    SameBut s (s.visitRoutes p reason) [.routes, .pool, .queue, .notices] := by
  unfold State.visitRoutes
  generalize List.finRange 16 = channels
  induction channels generalizing s with
  | nil => exact .refl s _
  | cons channel rest ih => exact (endIngressFrame_frame s _ reason).trans (ih _)

end Frames

/-! ## Events and executions -/

/-- An event answers a next state: the end of its effect, or the state as it was. -/
theorem event_eq (s : State) (possible : Bool) (effect : State) :
    event s possible effect = .next (if s.resetLine == .high && possible then effect.finish else s) := rfl

/-- An event that is possible at a part that is not held. -/
theorem event_possible {s : State} {possible : Bool} (effect : State) (high : s.resetLine = .high)
    (h : possible = true) : event s possible effect = .next effect.finish := by
  simp [event, high, h]

/-- An event that is not possible changes nothing. -/
theorem event_impossible (s : State) {possible : Bool} (effect : State)
    (h : s.resetLine ≠ .high ∨ possible = false) : event s possible effect = .next s := by
  rcases h with h | h <;> simp [event, h]

/-- An execution row whose record is the arbiter's choice carries it out. -/
theorem serve_of_serves {s : State} {src : Source} {record : CommandRecord} {code : Byte} {codes : Byte → Bool}
    {run : Source → List Byte → State → Execution} (h : Serves s src record code) (hc : codes code = true) :
    s.serve codes run =
      .next ((run src record.arguments (s.takeRecord src)).state.answered src record
        (run src record.arguments (s.takeRecord src)).status
        (run src record.arguments (s.takeRecord src)).results) := by
  obtain ⟨high, next, rfl⟩ := h
  simp only [State.serve, next]
  exact event_possible _ high hc

/-- An execution row answers a next state whatever the inboxes hold. -/
theorem serve_next (s : State) (codes : Byte → Bool) (run : Source → List Byte → State → Execution) :
    ∃ t, s.serve codes run = .next t := by
  unfold State.serve
  split <;> exact ⟨_, rfl⟩

end Sys2Proof.Machine
end

