-- ==== Sys2Proof/Laws/Ingress.lean ====
section
/-! SUPPORT. What the operations of the ingress and of the frame assemblers can change: ports, routes, pool, queue and
notices, and of these only what each lemma lists. -/

namespace Sys2Proof.Machine

section Ports
variable (s : State) (p : Fin 4)

theorem cutReception_frame : SameBut s (s.cutReception p) [.ports] := by
  unfold State.cutReception
  split
  · exact (modifyPort_frame s p _).trans (countPort_frame _ p _)
  · exact .refl s _

theorem receive_frame (header : Option PacketHeader) (d : Disposition) :
    SameBut s (s.receive p header d) [.ports] := modifyPort_frame s p _

theorem activatePort_frame : SameBut s (s.activatePort p) [.ports, .notices] := by
  unfold State.activatePort
  split
  · exact .refl s _
  · exact ((modifyPort_frame s p _).mono (by decide)).trans ((raise_frame _ _).mono (by decide))

theorem alignmentLost_frame :
    SameBut s (s.alignmentLost p) [.ports, .routes, .pool, .queue, .notices] := by
  unfold State.alignmentLost
  split
  · exact (((((modifyPort_frame s p _).trans (countPort_frame _ p _)).trans (cutReception_frame _ p)).mono
      (by decide)).trans ((visitRoutes_frame _ p _).mono (by decide))).trans ((raise_frame _ _).mono (by decide))
  · exact (modifyPort_frame s p _).mono (by decide)

theorem badMark_frame : SameBut s (s.badMark p) [.ports] := countPort_frame s p _

end Ports

section Headers
variable (s : State) (p : Fin 4) (r : Fin 64)

theorem modifyFrame_frame (f : OpenFrame → OpenFrame) : SameBut s (s.modifyFrame r f) [.routes] := by
  unfold State.modifyFrame
  split
  · exact setAssembly_frame s r _
  · exact .refl s _

theorem setLine_frame (line : LineInAssembly) : SameBut s (s.setLine r line) [.routes, .pool] := by
  unfold State.setLine
  refine (freeLine_frame s r).trans ?_
  dsimp only
  split
  · exact (setAssembly_frame _ r _).mono (by decide)
  · exact .refl _ _

theorem testLong_frame (header : PacketHeader) : SameBut s (s.testLong p r header) [.ports] := by
  unfold State.testLong
  repeat' split
  · exact (modifyPort_frame s p _).trans (countPort_frame _ p _)
  · exact .refl s _
  · exact .refl s _

theorem allocate_frame (header : PacketHeader) :
    SameBut s (s.allocate p r header) [.ports, .routes, .pool, .queue, .notices] := by
  unfold State.allocate
  dsimp only
  split
  · exact ((((setLine_frame s r _).mono (by decide)).trans ((takeSegments_frame _ r _).mono (by decide))).trans
      ((takeDescriptors_frame _ _).mono (by decide))).trans ((testLong_frame _ p r header).mono (by decide))
  · exact ((abort_frame s r _).mono (by decide)).trans ((countRoute_frame _ r _).mono (by decide))

theorem filterPacket_frame (header : PacketHeader) :
    SameBut s (s.filterPacket p r header) [.ports, .routes, .pool, .queue, .notices] := by
  unfold State.filterPacket
  dsimp only
  split
  · exact (countRoute_frame s r _).mono (by decide)
  · exact allocate_frame s p r header

theorem countLine_frame (header : PacketHeader) (frame : OpenFrame) :
    SameBut s (s.countLine p r header frame) [.ports, .routes, .pool, .queue, .notices] := by
  unfold State.countLine
  repeat' split
  · exact ((modifyFrame_frame s r _).mono (by decide)).trans (filterPacket_frame _ p r header)
  · exact ((modifyFrame_frame s r _).mono (by decide)).trans ((countRoute_frame _ r _).mono (by decide))
  · exact filterPacket_frame s p r header

theorem assembleHeader_frame (header : PacketHeader) (frame : OpenFrame) :
    SameBut s (s.assembleHeader p r header frame) [.ports, .routes, .pool, .queue, .notices] := by
  unfold State.assembleHeader
  split
  · next h _ =>
    refine ((fireHoldPoint_frame s r frame.number h).mono (by decide)).trans ?_
    dsimp only
    split
    · exact ((abort_frame _ r _).mono (by decide)).trans ((countRoute_frame _ r _).mono (by decide))
    · exact ((forceGate_frame _ r).mono (by decide)).trans (countLine_frame _ p r header frame)
  · exact countLine_frame s p r header frame

theorem routeHeader_frame (header : PacketHeader) :
    SameBut s (s.routeHeader p r header) [.ports, .routes, .pool, .queue, .notices] := by
  unfold State.routeHeader
  refine ((stopIdleTimer_frame s r).mono (by decide)).trans ?_
  dsimp only
  repeat' split
  · exact .refl _ _
  · exact assembleHeader_frame _ p r header _
  · exact (countRoute_frame _ r _).mono (by decide)
  · exact (countRoute_frame _ r _).mono (by decide)

theorem classify_frame (header : PacketHeader) :
    SameBut s (s.classify p header) [.ports, .routes, .pool, .queue, .notices] := by
  unfold State.classify
  dsimp only
  repeat' split
  · exact ((receive_frame s p _ _).trans (countPort_frame _ p _)).mono (by decide)
  · exact ((receive_frame s p _ _).trans (countPort_frame _ p _)).mono (by decide)
  · exact ((receive_frame s p _ _).mono (by decide)).trans (routeHeader_frame _ p _ header)

theorem headerArrives_frame (header : Header) :
    SameBut s (s.headerArrives p header) [.ports, .routes, .pool, .queue, .notices] := by
  unfold State.headerArrives
  split
  · exact (((activatePort_frame s p).mono (by decide)).trans ((countPort_frame _ p _).mono (by decide))).trans
      (classify_frame _ p _)
  · exact ((receive_frame s p _ _).trans (countPort_frame _ p _)).mono (by decide)

theorem writePayload_frame (length : Nat) (bytes : List Byte) :
    SameBut s (s.writePayload r length bytes) [.routes] := by
  unfold State.writePayload
  split
  · exact setAssembly_frame s r _
  · exact .refl s _

theorem bytesArrive_frame (bytes : List Byte) : SameBut s (s.bytesArrive p bytes) [.ports, .routes] := by
  unfold State.bytesArrive
  split
  · dsimp only
    split
    · exact ((writePayload_frame s _ _ _).mono (by decide)).trans ((modifyPort_frame _ p _).mono (by decide))
    · exact (modifyPort_frame s p _).mono (by decide)
  · exact .refl s _

end Headers

section Ends
variable (s : State) (p : Fin 4) (r : Fin 64)

theorem startIdleTimer_frame : SameBut s (s.startIdleTimer r) [.routes] := by
  unfold State.startIdleTimer
  split
  · exact .refl s _
  · exact modifyRoute_frame s r _

theorem admit_frame (mark : OpeningMark) : SameBut s (s.admitFrame r mark) [.routes, .pool, .queue] :=
  ((((takeDescriptors_frame s 2).mono (by decide)).trans ((enqueue_frame _ r _ _).mono (by decide))).trans
    ((setAssembly_frame _ r _).mono (by decide))).trans ((modifyRoute_frame _ r _).mono (by decide))

theorem refuseFrame_frame (mark : OpeningMark) : SameBut s (s.refuseFrame r mark) [.routes, .notices] := by
  unfold State.refuseFrame
  dsimp only
  split
  · exact (modifyRoute_frame s r _).mono (by decide)
  · exact ((modifyRoute_frame s r _).mono (by decide)).trans ((raise_frame _ _).mono (by decide))

theorem holdOff_frame : SameBut s (s.holdOff r) [.routes] :=
  (setAssembly_frame s r _).trans (countRoute_frame _ r _)

theorem tryFrame_frame (mark : OpeningMark) (fired : Option HoldPoint) :
    SameBut s (s.tryFrame r mark fired) [.routes, .pool, .queue, .notices] := by
  unfold State.tryFrame
  repeat' split
  · exact ((shutGate_frame s r _ _).mono (by decide)).trans ((holdOff_frame _ r).mono (by decide))
  · exact ((admit_frame s r mark).mono (by decide)).trans ((forceGate_frame _ r).mono (by decide))
  · exact (refuseFrame_frame s r mark).mono (by decide)
  · exact (admit_frame s r mark).mono (by decide)
  · exact (refuseFrame_frame s r mark).mono (by decide)

theorem meetGate_frame (mark : OpeningMark) (fired : Option HoldPoint) :
    SameBut s (s.meetGate r mark fired) [.routes, .pool, .queue, .notices] := by
  unfold State.meetGate
  split
  all_goals first
    | exact tryFrame_frame s r mark fired
    | exact (holdOff_frame s r).mono (by decide)

theorem fire_frame (frame : Nat) (fired : Option HoldPoint) :
    SameBut s (s.fire r frame fired) [.routes, .notices] := by
  cases fired with
  | none => exact .refl s _
  | some h => exact fireHoldPoint_frame s r frame h

theorem openingMark_frame (mark : OpeningMark) :
    SameBut s (s.openingMark r mark) [.routes, .pool, .queue, .notices] :=
  (((fire_frame s r _ _).mono (by decide)).trans (endIngressFrame_frame _ r .truncated)).trans
    (meetGate_frame _ r mark _)

theorem forward_frame (frame : OpenFrame) (line : LineInAssembly) (damaged long : Bool) :
    SameBut s (s.forward r frame line damaged long) [.routes, .queue] := by
  unfold State.forward
  dsimp only
  split
  all_goals exact (((enqueue_frame s r _ _).mono (by decide)).trans ((setAssembly_frame _ r _).mono
    (by decide))).trans ((countRoute_frame _ r _).mono (by decide))

theorem applyPolicy_frame (frame : OpenFrame) (line : LineInAssembly) (long : Bool) :
    SameBut s (s.applyPolicy r frame line long) [.routes, .pool, .queue, .notices] := by
  unfold State.applyPolicy
  split
  · exact abort_frame s r _
  · exact ((forward_frame s r _ _ _ _).mono (by decide)).trans ((countRoute_frame _ r _).mono (by decide))

theorem damagedLine_frame (frame : OpenFrame) (line : LineInAssembly) (long : Bool) :
    SameBut s (s.damagedLine r frame line long) [.routes, .pool, .queue, .notices] := by
  unfold State.damagedLine
  split
  · next h _ =>
    refine ((fireHoldPoint_frame s r frame.number h).mono (by decide)).trans ?_
    dsimp only
    split
    · exact abort_frame _ r _
    · exact ((forceGate_frame _ r).mono (by decide)).trans (applyPolicy_frame _ r frame line long)
  · exact applyPolicy_frame s r frame line long

theorem packetEnd_frame (damaged long : Bool) :
    SameBut s (s.packetEnd r damaged long) [.routes, .pool, .queue, .notices] := by
  unfold State.packetEnd
  repeat' split
  · exact damagedLine_frame s r _ _ long
  · exact (forward_frame s r _ _ _ _).mono (by decide)
  · exact .refl s _

theorem closeFrame_frame (frame : OpenFrame) (number : Nat) :
    SameBut s (s.closeFrame r frame number) [.routes, .pool, .queue, .notices] := by
  unfold State.closeFrame
  dsimp only
  exact ((((((freeLine_frame s r).mono (by decide)).trans ((enqueue_frame _ r _ _).mono (by decide))).trans
    ((countRoute_frame _ r _).mono (by decide))).trans ((setAssembly_frame _ r _).mono (by decide))).trans
    ((stopIdleTimer_frame _ r).mono (by decide))).trans ((frameEndStep_frame _ r _).mono (by decide))

theorem closingMark_frame (number : Nat) :
    SameBut s (s.closingMark r number) [.routes, .pool, .queue, .notices] := by
  unfold State.closingMark
  split
  · exact closeFrame_frame s r _ number
  · exact (((setAssembly_frame s r _).trans (stopIdleTimer_frame _ r)).trans (countRoute_frame _ r _)).mono
      (by decide)
  · exact (countRoute_frame s r _).mono (by decide)

theorem endAtRoute_frame (x : Reception) (header : PacketHeader) :
    SameBut s (s.endAtRoute p x header) [.ports, .routes, .pool, .queue, .notices] := by
  unfold State.endAtRoute
  dsimp only
  refine SameBut.trans ?_ ((startIdleTimer_frame _ _).mono (by decide))
  repeat' split
  · exact (openingMark_frame s _ _).mono (by decide)
  · exact (badMark_frame s p).mono (by decide)
  · exact (closingMark_frame s _ _).mono (by decide)
  · exact (badMark_frame s p).mono (by decide)
  · exact (packetEnd_frame s _ _ _).mono (by decide)
  · exact ((countPort_frame s p _).mono (by decide)).trans ((packetEnd_frame _ _ _ _).mono (by decide))

theorem packetEnds_frame : SameBut s (s.packetEnds p) [.ports, .routes, .pool, .queue, .notices] := by
  unfold State.packetEnds
  split
  · refine ((modifyPort_frame s p fun y => { y with reception := none }).mono (by decide)).trans ?_
    dsimp only
    repeat' split
    · exact endAtRoute_frame _ p _ _
    · exact (countPort_frame _ p _).mono (by decide)
    · exact .refl _ _
    · exact .refl _ _
  · exact .refl s _

end Ends

end Sys2Proof.Machine
end

