-- ==== Sys2Proof/Laws/Aborts.lean ====
section
/-! SUPPORT. Everything that taking an ingress frame away does (R6, R33, R41, R62, R63): `endIngressFrame_spec` for one
route, `visitRoutes_spec` for the sixteen routes of a port. A proof cites these and unfolds no abort. -/

namespace Sys2Proof.Machine

/-! ## The line in assembly is freed -/

theorem State.route_freeLine (s : State) (r k : Fin 64) : (s.freeLine r).route k =
    if k = r then
      { s.route r with
        heldSegments := (s.route r).heldSegments - (s.route r).lineSegments
        assembly := match (s.route r).assembly with | .assembling frame _ => .assembling frame none | a => a }
    else s.route k := by
  unfold State.freeLine Route.lineSegments
  split
  · next frame line h =>
    by_cases hk : k = r
    · subst hk; simp [h]
    · simp [hk, State.route_setAssembly_ne, State.route_returnSegments_ne]
  · next h =>
    by_cases hk : k = r
    · subst hk
      have ha : (match (s.route k).assembly with | .assembling frame _ => .assembling frame none | a => a)
          = (s.route k).assembly := by
        rcases hq : (s.route k).assembly with _ | ⟨f, _ | l⟩ | _
        · rfl
        · rfl
        · exact absurd hq (h _ _)
        · rfl
      simp only [if_true, ha]; rfl
    · simp [hk]

theorem State.freeLine_pool (s : State) (r : Fin 64) :
    (s.freeLine r).pool = s.pool.freed (s.route r).lineSegments (s.route r).linesInAssembly := by
  unfold State.freeLine Route.lineSegments Route.linesInAssembly
  rcases hq : (s.route r).assembly with _ | ⟨f, _ | l⟩ | _ <;> simp [Pool.freed]

/-! ## One route -/

/-- Everything an abort of an open frame does (R62, R63). -/
theorem abort_spec (s : State) (r : Fin 64) (reason : AbortReason) (frame : OpenFrame)
    (line : Option LineInAssembly) (h : (s.route r).assembly = .assembling frame line) :
    FrameEnded s (s.abort r reason) r reason := by
  have e : s.abort r reason = ((((((s.freeLine r).enqueue r 0 (.abort reason frame.number frame.forwarded)).countRoute
      r (·.countAbort reason)).raise (.frameAborted r frame.number reason)).setAssembly r
      reason.assemblyAfter).stopIdleTimer r).abortGateStep r reason frame.number := by
    simp [State.abort, h]
  refine ⟨abort_frame s r reason, ?_, ?_, ?_, ?_, ?_⟩
  · intro k hk
    rw [e]
    unfold State.abortGateStep State.frameEndStep State.shutGate
    repeat' split
    all_goals simp [State.route_modifyRoute_ne, State.route_setAssembly_ne, State.route_countRoute_ne,
      State.route_stopIdleTimer_ne, State.route_freeLine, hk]
  all_goals
    rw [e]
    rcases hg : (s.route r).gate <;> cases reason <;>
    simp [State.abortGateStep, State.frameEndStep, State.shutGate, State.route_freeLine, State.freeLine_pool, hg, h,
      Route.ended, Route.endRecords, Route.endNotices, abortRecord, abortNotices, closeNotices,
      NoticeQueue.raiseAll, Gate.afterAbort, AbortReason.assemblyAfter, (freeLine_frame s r).queue,
      (freeLine_frame s r).notices, Pool.freed]

/-- Everything that taking an ingress frame away does, whatever the assembly state (R6, R33, R41). -/
theorem endIngressFrame_spec (s : State) (r : Fin 64) (reason : AbortReason) :
    FrameEnded s (s.endIngressFrame r reason) r reason := by
  unfold State.endIngressFrame
  split
  · next frame line h => exact abort_spec s r reason frame line h
  · next h =>
    refine ⟨((setAssembly_frame s r _).trans (stopIdleTimer_frame _ r)).mono (by decide), ?_, ?_, ?_, ?_, ?_⟩
    · intro k hk
      simp [State.route_setAssembly_ne, State.route_stopIdleTimer_ne, hk]
    all_goals simp [Route.ended, Route.endRecords, Route.endNotices, Route.lineSegments, Route.linesInAssembly, h,
      Pool.freed, NoticeQueue.raiseAll]
  · next h =>
    refine ⟨.refl s _, fun k _ => rfl, ?_, ?_, ?_, ?_⟩
    all_goals simp [Route.ended, Route.endRecords, Route.endNotices, Route.lineSegments, Route.linesInAssembly, h,
      Pool.freed, NoticeQueue.raiseAll]

/-! ## The sixteen routes of a port -/

/-- Everything that visiting distinct routes in order does. -/
theorem foldl_endIngressFrame_spec (reason : AbortReason) (l : List (Fin 64)) (nodup : l.Nodup) (s : State) :
    (∀ k, (l.foldl (fun s r => s.endIngressFrame r reason) s).route k =
      if k ∈ l then (s.route k).ended reason else s.route k) ∧
    (l.foldl (fun s r => s.endIngressFrame r reason) s).queue =
      s.queue ++ l.flatMap (fun r => (s.route r).endRecords r reason) ∧
    (l.foldl (fun s r => s.endIngressFrame r reason) s).pool =
      s.pool.freed (l.map fun r => (s.route r).lineSegments).sum (l.map fun r => (s.route r).linesInAssembly).sum ∧
    (l.foldl (fun s r => s.endIngressFrame r reason) s).notices =
      s.notices.raiseAll (l.flatMap fun r => (s.route r).endNotices r reason) := by
  induction l generalizing s with
  | nil => simp [Pool.freed, NoticeQueue.raiseAll]
  | cons r l ih =>
    obtain ⟨hr, hl⟩ := List.nodup_cons.1 nodup
    obtain ⟨-, only, self, queue, pool, notices⟩ := endIngressFrame_spec s r reason
    obtain ⟨i1, i2, i3, i4⟩ := ih hl (s.endIngressFrame r reason)
    have same : ∀ k ∈ l, (s.endIngressFrame r reason).route k = s.route k :=
      fun k hk => only k fun e => hr (e ▸ hk)
    simp only [List.foldl_cons]
    refine ⟨fun k => ?_, ?_, ?_, ?_⟩
    · rw [i1]
      by_cases hk : k = r
      · subst hk; simp [hr, self]
      · simp [hk, only k hk]
    · rw [i2, queue, List.flatMap_cons, List.append_assoc]
      congr 2
      exact List.flatMap_congr fun k hk => by rw [same k hk]
    · rw [i3, pool]
      have e1 : (l.map fun k => ((s.endIngressFrame r reason).route k).lineSegments)
          = l.map fun k => (s.route k).lineSegments := List.map_congr_left fun k hk => by rw [same k hk]
      have e2 : (l.map fun k => ((s.endIngressFrame r reason).route k).linesInAssembly)
          = l.map fun k => (s.route k).linesInAssembly := List.map_congr_left fun k hk => by rw [same k hk]
      simp [e1, e2, Pool.freed, Nat.add_assoc]
    · rw [i4, notices, List.flatMap_cons]
      simp only [NoticeQueue.raiseAll, List.foldl_append]
      congr 1
      exact List.flatMap_congr fun k hk => by rw [same k hk]

theorem routesOf_nodup (p : Fin 4) : (routesOf p).Nodup := by
  refine (List.nodup_finRange 16).map fun a b h => ?_
  have := congrArg Fin.val h
  simp only [routeOf] at this
  exact Fin.ext (by omega)

theorem mem_routesOf {p : Fin 4} {r : Fin 64} : r ∈ routesOf p ↔ portOf r = p := by
  simp only [routesOf, List.mem_map, List.mem_finRange, true_and, routeOf, portOf, Fin.ext_iff]
  constructor
  · rintro ⟨c, hc⟩; omega
  · intro h; exact ⟨⟨r.val % 16, by omega⟩, by simp only; omega⟩

/-- Everything that visiting the sixteen routes of a port does (R6, R8). -/
theorem visitRoutes_spec (s : State) (p : Fin 4) (reason : AbortReason) :
    PortVisited s (s.visitRoutes p reason) p reason [] := by
  have e : s.visitRoutes p reason = (routesOf p).foldl (fun s r => s.endIngressFrame r reason) s := by
    simp [State.visitRoutes, routesOf, List.foldl_map]
  obtain ⟨i1, i2, i3, i4⟩ := foldl_endIngressFrame_spec reason (routesOf p) (routesOf_nodup p) s
  rw [e]
  refine ⟨fun r h => ?_, fun r h => ?_, i2, i3, by simpa using i4⟩
  · rw [i1, if_pos (mem_routesOf.2 h)]
  · rw [i1, if_neg fun k => h (mem_routesOf.1 k)]

end Sys2Proof.Machine
end

