-- ==== Sys2Proof/Laws/Delivery.lean ====
section
/-! SUPPORT. What delivering a record to a source does (R148, R149, R151): it touches that source alone, and
`judgeRecord_source` says once what becomes of it, for the control port and the trunk alike. -/

namespace Sys2Proof.Machine

/-- Delivery touches the source alone (R151). -/
theorem deliver_frame (s : State) (src : Source) (record : CommandRecord) :
    SameBut s (s.deliver src record) [src.piece] := by
  unfold State.deliver
  dsimp only
  split
  · exact countSource_frame s src _
  · split
    · exact (modifySource_frame s src _).trans (countSource_frame _ src _)
    · exact countSource_frame s src _
    · exact modifySource_frame s src _

/-- A body that passed its length and its check touches the source alone (R148, R149, R151). -/
theorem takeBody_frame (s : State) (src : Source) (body : List Byte) :
    SameBut s (s.takeBody src body) [src.piece] := by
  unfold State.takeBody
  split
  · exact (countSource_frame s src _).trans (deliver_frame _ src _)
  · exact countSource_frame s src _

/-- A delivery that finds the inbox full, or the reply it would replay not yet sent, discards the record (R151). -/
theorem deliver_overrun {s : State} {src : Source} {record : CommandRecord}
    (h : (s.source src).inbox ≠ none ∨ ((s.source src).slot ≠ none ∧
      ∃ reply, (s.source src).cache = some reply ∧ reply.sequence = record.sequence)) :
    (s.deliver src record).source src =
      { s.source src with
        counters := { (s.source src).counters with inboxOverrun := bump (s.source src).counters.inboxOverrun } } := by
  unfold State.deliver
  rcases inbox : (s.source src).inbox with _ | _
  · rcases h with h | ⟨slot, reply, cache, sequence⟩
    · exact absurd inbox h
    · obtain ⟨sent, slot⟩ := Option.ne_none_iff_exists'.1 slot
      simp [inbox, cache, Option.filter, sequence, slot]
  · simp [inbox]

/-- A delivery of the cached sequence to a source whose output slot is empty replays the cached reply (R151). -/
theorem deliver_replay {s : State} {src : Source} {record : CommandRecord} {reply : Reply}
    (inbox : (s.source src).inbox = none) (slot : (s.source src).slot = none)
    (cache : (s.source src).cache = some reply) (sequence : reply.sequence = record.sequence) :
    (s.deliver src record).source src =
      { s.source src with
        slot := some reply
        counters := { (s.source src).counters with replays := bump (s.source src).counters.replays } } := by
  simp [State.deliver, inbox, slot, cache, Option.filter, sequence]

/-- A delivery of another sequence to an empty inbox fills it (R151). -/
theorem deliver_inbox {s : State} {src : Source} {record : CommandRecord} (inbox : (s.source src).inbox = none)
    (fresh : ∀ reply, (s.source src).cache = some reply → reply.sequence ≠ record.sequence) :
    (s.deliver src record).source src = { s.source src with inbox := some record } := by
  have cached : (s.source src).cache.filter (·.sequence == record.sequence) = none := by
    rw [Option.filter_eq_none_iff]
    exact fun reply h => by simpa using fresh reply h
  simp [State.deliver, inbox, cached]

/-- Judging a record touches its source alone. -/
theorem judgeRecord_frame (s : State) (src : Source) (covered check : List Byte) :
    SameBut s (s.judgeRecord src covered check) [src.piece] := by
  unfold State.judgeRecord
  split
  · exact takeBody_frame s src _
  · exact countSource_frame s src _

/-- R148, R149 and R151: what becomes of the source of a record that is judged. -/
theorem judgeRecord_source (s : State) (src : Source) (covered check : List Byte) :
    JudgedAndDelivered (s.source src) covered check (((s.judgeRecord src covered check).source src) = ·) := by
  refine ⟨fun wrong => ?_, fun right other => ?_, fun sequence code arguments right kind => ?_⟩
  · rw [State.judgeRecord, if_neg wrong]
    exact s.source_countSource_self src _
  · have unread : readCommand (covered.drop 1) = none := by
      unfold readCommand
      split
      · next h => exact if_neg fun h' => other (by simpa [h] using h')
      · rfl
    simp only [State.judgeRecord, if_pos right, State.takeBody, unread]
    exact s.source_countSource_self src _
  · simp only [State.judgeRecord, if_pos right, kind, State.takeBody, readCommand, beq_self_eq_true, if_true]
    refine ⟨fun h => ?_, fun reply inbox slot cache same => ?_, fun inbox fresh => ?_⟩
    · rw [deliver_overrun (by simpa using h)]
      simp
    · rw [deliver_replay (reply := reply) (by simpa using inbox) (by simpa using slot) (by simpa using cache) same]
      simp
    · rw [deliver_inbox (by simpa using inbox) (by simpa using fresh)]
      simp

end Sys2Proof.Machine
end

