-- ==== Sys2Proof/Laws/Executions.lean ====
section
/-! SUPPORT. One lemma per execution row: when the executor takes a record of the row's code, the row answers with the
command's function on the part as it is once the record is taken. And reading back the one-byte and two-byte fields of
arguments. A proof about a command cites its lemma here and unfolds the command's function alone. -/

namespace Sys2Proof.Machine

/-- The next state of an execution: the command's function, then the reply. -/
def answerOf (run : Source → List Byte → State → Execution) (s : State) (src : Source) (record : CommandRecord) :
    State :=
  (run src record.arguments (s.takeRecord src)).state.answered src record
    (run src record.arguments (s.takeRecord src)).status (run src record.arguments (s.takeRecord src)).results

theorem serve_answers {s : State} {src : Source} {record : CommandRecord} {code : Byte}
    (codes : Byte → Bool) (run : Source → List Byte → State → Execution) (h : Serves s src record code)
    (hc : codes code = true) :
    s.serve codes run = .next (answerOf run s src record) := serve_of_serves h hc

section Rows
variable {s : State} {src : Source} {record : CommandRecord}

theorem exec_unknownCommand (h : Serves s src record record.code) (hc : record.code ∉ commandCodes) :
    exec .unknownCommand s = .next (answerOf unknownCommand s src record) :=
  serve_answers (fun code => !commandCodes.contains code) unknownCommand h (by simpa using hc)
theorem exec_identify (h : Serves s src record 0x01) :
    exec .identify s = .next (answerOf identify s src record) :=
  serve_answers (· == 0x01) identify h rfl
theorem exec_claim (h : Serves s src record 0x02) :
    exec .claim s = .next (answerOf claim s src record) :=
  serve_answers (· == 0x02) claim h rfl
theorem exec_drop (h : Serves s src record 0x03) :
    exec .drop s = .next (answerOf drop s src record) :=
  serve_answers (· == 0x03) drop h rfl
theorem exec_leaseTime (h : Serves s src record 0x04) :
    exec .leaseTime s = .next (answerOf leaseTime s src record) :=
  serve_answers (· == 0x04) leaseTime h rfl
theorem exec_resetPart (h : Serves s src record 0x05) :
    exec .resetPart s = .next (answerOf resetPart s src record) :=
  serve_answers (· == 0x05) resetPart h rfl
theorem exec_portSet (h : Serves s src record 0x10) :
    exec .portSet s = .next (answerOf portSet s src record) :=
  serve_answers (· == 0x10) portSet h rfl
theorem exec_portStatus (h : Serves s src record 0x11) :
    exec .portStatus s = .next (answerOf portStatus s src record) :=
  serve_answers (· == 0x11) portStatus h rfl
theorem exec_routeRead (h : Serves s src record 0x20) :
    exec .routeRead s = .next (answerOf routeRead s src record) :=
  serve_answers (· == 0x20) routeRead h rfl
theorem exec_routeWrite (h : Serves s src record 0x21) :
    exec .routeWrite s = .next (answerOf routeWrite s src record) :=
  serve_answers (· == 0x21) routeWrite h rfl
theorem exec_routeEnable (h : Serves s src record 0x22) :
    exec .routeEnable s = .next (answerOf routeEnable s src record) :=
  serve_answers (· == 0x22) routeEnable h rfl
theorem exec_routeDisable (h : Serves s src record 0x23) :
    exec .routeDisable s = .next (answerOf routeDisable s src record) :=
  serve_answers (· == 0x23) routeDisable h rfl
theorem exec_tableScan (h : Serves s src record 0x24) :
    exec .tableScan s = .next (answerOf tableScan s src record) :=
  serve_answers (· == 0x24) tableScan h rfl
theorem exec_hold (h : Serves s src record 0x28) :
    exec .hold s = .next (answerOf (gateCommand holdGate) s src record) :=
  serve_answers (· == 0x28) (gateCommand holdGate) h rfl
theorem exec_release (h : Serves s src record 0x29) :
    exec .release s = .next (answerOf (gateCommand releaseGate) s src record) :=
  serve_answers (· == 0x29) (gateCommand releaseGate) h rfl
theorem exec_step (h : Serves s src record 0x2A) :
    exec .step s = .next (answerOf (gateCommand stepGate) s src record) :=
  serve_answers (· == 0x2A) (gateCommand stepGate) h rfl
theorem exec_holdpointSet (h : Serves s src record 0x2B) :
    exec .holdpointSet s = .next (answerOf holdpointSet s src record) :=
  serve_answers (· == 0x2B) holdpointSet h rfl
theorem exec_holdpointClear (h : Serves s src record 0x2C) :
    exec .holdpointClear s = .next (answerOf holdpointClear s src record) :=
  serve_answers (· == 0x2C) holdpointClear h rfl
theorem exec_poolStatus (h : Serves s src record 0x30) :
    exec .poolStatus s = .next (answerOf poolStatus s src record) :=
  serve_answers (· == 0x30) poolStatus h rfl
theorem exec_trunkStatus (h : Serves s src record 0x40) :
    exec .trunkStatus s = .next (answerOf trunkStatus s src record) :=
  serve_answers (· == 0x40) trunkStatus h rfl
theorem exec_trunkHalt (h : Serves s src record 0x41) :
    exec .trunkHalt s = .next (answerOf trunkHalt s src record) :=
  serve_answers (· == 0x41) trunkHalt h rfl
theorem exec_trunkStart (h : Serves s src record 0x42) :
    exec .trunkStart s = .next (answerOf trunkStart s src record) :=
  serve_answers (· == 0x42) trunkStart h rfl
theorem exec_trunkRetrain (h : Serves s src record 0x43) :
    exec .trunkRetrain s = .next (answerOf trunkRetrain s src record) :=
  serve_answers (· == 0x43) trunkRetrain h rfl
theorem exec_noticeAck (h : Serves s src record 0x50) :
    exec .noticeAck s = .next (answerOf noticeAck s src record) :=
  serve_answers (· == 0x50) noticeAck h rfl
theorem exec_noticeReplay (h : Serves s src record 0x51) :
    exec .noticeReplay s = .next (answerOf noticeReplay s src record) :=
  serve_answers (· == 0x51) noticeReplay h rfl
theorem exec_noticeMask (h : Serves s src record 0x52) :
    exec .noticeMask s = .next (answerOf noticeMask s src record) :=
  serve_answers (· == 0x52) noticeMask h rfl
theorem exec_noticeRoute (h : Serves s src record 0x53) :
    exec .noticeRoute s = .next (answerOf noticeRoute s src record) :=
  serve_answers (· == 0x53) noticeRoute h rfl
theorem exec_countersRead (h : Serves s src record 0x60) :
    exec .countersRead s = .next (answerOf countersRead s src record) :=
  serve_answers (· == 0x60) countersRead h rfl

end Rows

/-! ## The lease -/

theorem takeRecord_holdsLease (s : State) (src : Source) :
    (s.takeRecord src).holdsLease src = decide (s.lease.holder = some src) := by
  simp only [State.holdsLease, State.takeRecord_lease]
  rw [Bool.eq_iff_iff, beq_iff_eq, decide_eq_true_iff]

/-! ## Fields read back -/

@[simp] theorem byte_toNat (n : Nat) : (byte n).toNat = n % 256 := by simp [byte]

theorem readRoute_byte (r : Fin 64) : readRoute (byte r.val) = some r := by
  have h : (byte r.val).toNat < 64 := by rw [byte_toNat]; omega
  rw [readRoute, dif_pos h]
  exact congrArg some (Fin.ext (by simp only [byte_toNat]; omega))

theorem readPort_byte (p : Fin 4) : readPort (byte p.val) = some p := by
  have h : (byte p.val).toNat < 4 := by rw [byte_toNat]; omega
  rw [readPort, dif_pos h]
  exact congrArg some (Fin.ext (by simp only [byte_toNat]; omega))

theorem readFlag_flagByte (b : Bool) : readFlag (flagByte b) = some b := by cases b <;> rfl

theorem readLanes_count (lanes : Lanes) : readLanes (byte lanes.count) = some lanes := by cases lanes <;> rfl

theorem readSource_code (src : Source) : readSource src.code = some src := by cases src <;> rfl

theorem readHoldKind_code (kind : HoldKind) : readHoldKind kind.code = some kind := by cases kind <;> rfl

theorem readMode_code (mode : Mode) : readMode mode.code = some mode := by cases mode <;> rfl

theorem readPolicy_code (policy : DamagePolicy) : readPolicy policy.code = some policy := by cases policy <;> rfl

/-- A two-byte field reads back. -/
theorem read16_word16 {n : Nat} (h : n < 65536) : read16 (byte n) (byte (n / 256)) = n := by
  simp only [read16, byte_toNat]; omega

/-- Two bytes are the field of the number they read as. -/
theorem word16_read16 (lo hi : Byte) : word16 (read16 lo hi) = [lo, hi] := by
  have hlo := lo.isLt
  have hhi := hi.isLt
  simp only [word16, read16, List.cons.injEq, and_true, ← BitVec.toNat_inj, byte_toNat]
  omega

/-- A check as it is sent is the number its bytes read as. -/
theorem checkBytes_eq_iff {c : Check} {lo hi : Byte} : checkBytes c = [lo, hi] ↔ c.toNat = read16 lo hi := by
  have := c.isLt
  have := lo.isLt
  have := hi.isLt
  simp only [checkBytes, word16, List.cons.injEq, and_true, ← BitVec.toNat_inj, byte_toNat, read16]
  omega

end Sys2Proof.Machine
end

