-- ==== Sys2Proof/Laws/Marks.lean ====
section
/-! SUPPORT. What a good opening mark does before its frame meets the gate (R43, R44, R46, R93, R99): `markTaken_spec`
says once how the route, the queue, the pool and the notices then stand, and `firedByMark_eq` in which gates it fires.
-/

namespace Sys2Proof.Machine

/-- A route whose hold point fired, if one did (R99). -/
def Route.disarmedBy (x : Route) : Option HoldPoint → Route
  | some h => { x with holdPoint := some { h with armed := false } }
  | none => x

/-- The HOLD_FIRED of the hold point that fired, if one did (R99). -/
def firedNotices (r : Fin 64) (number : Nat) : Option HoldPoint → List NoticeInfo
  | some h => [.holdFired r number h.kind h.condition.name]
  | none => []

theorem raiseAll_append (q : NoticeQueue) (first second : List NoticeInfo) :
    q.raiseAll (first ++ second) = (q.raiseAll first).raiseAll second := List.foldl_append ..

/-- Disarming a hold point leaves everything that the end of the ingress frame reads and writes. -/
theorem ended_disarmedBy (x : Route) (r : Fin 64) (fired : Option HoldPoint) (reason : AbortReason) :
    (x.disarmedBy fired).ended reason = (x.ended reason).disarmedBy fired ∧
    (x.disarmedBy fired).endRecords r reason = x.endRecords r reason ∧
    (x.disarmedBy fired).endNotices r reason = x.endNotices r reason ∧
    (x.disarmedBy fired).lineSegments = x.lineSegments ∧
    (x.disarmedBy fired).linesInAssembly = x.linesInAssembly := by
  obtain ⟨_, _, _, assembly, _, _, _, _⟩ := x
  cases fired <;> cases assembly <;> exact ⟨rfl, rfl, rfl, rfl, rfl⟩

/-- The state in which a frame meets the gate: the hold point fired first, then the ingress frame ended. -/
theorem markTaken_spec (s : State) (r : Fin 64) (number : Nat) (fired : Option HoldPoint) :
    let x := s.route r
    let v := (s.fire r number fired).endIngressFrame r .truncated
    SameBut s v [.routes, .pool, .queue, .notices] ∧ OnlyRoute s v r ∧
    v.route r = (x.ended .truncated).disarmedBy fired ∧
    v.queue = s.queue ++ x.endRecords r .truncated ∧
    v.pool = s.pool.freed x.lineSegments x.linesInAssembly ∧
    v.notices = s.notices.raiseAll (firedNotices r number fired ++ x.endNotices r .truncated) := by
  intro x v
  have frame := fire_frame s r number fired
  have route : (s.fire r number fired).route r = x.disarmedBy fired := by
    cases fired <;> simp [State.fire, State.fireHoldPoint, Route.disarmedBy, x]
  have only : OnlyRoute s (s.fire r number fired) r := by
    intro k hk
    cases fired <;> simp [State.fire, State.fireHoldPoint, State.route_modifyRoute_ne, hk]
  have notices : (s.fire r number fired).notices = s.notices.raiseAll (firedNotices r number fired) := by
    cases fired <;> rfl
  obtain ⟨same, rest, ended, queue, pool, raised⟩ := endIngressFrame_spec (s.fire r number fired) r .truncated
  obtain ⟨e1, e2, e3, e4, e5⟩ := ended_disarmedBy x r fired .truncated
  refine ⟨(frame.mono (by decide)).trans same, fun k hk => (rest k hk).trans (only k hk), ?_, ?_, ?_, ?_⟩
  · rw [ended, route, e1]
  · rw [queue, route, e2, frame.queue]
  · rw [pool, route, e4, e5, frame.pool]
  · rw [raised, route, e3, notices, raiseAll_append]

/-- A mark comes to the hold-point test exactly where the truncation leaves the gate OPEN or STEPPING (R45, R46,
R49). -/
theorem firedByMark_eq (x : Route) (number : Nat) :
    x.firedByMark number =
      if (x.ended .truncated).gate = .opened ∨ (x.ended .truncated).gate = .stepping
        then x.armedFor (.frameNumber number) else none := by
  obtain ⟨_, _, gate, assembly, _, _, _, _⟩ := x
  cases gate <;> cases assembly <;> rfl

end Sys2Proof.Machine
end

