-- ==== Sys2Proof/Tests/Slice0.lean ====
section
/-! SUPPORT. The model's own tests: the ill-formed terms the checks of WellFormed refuse, the check values of section
10.1, single steps whose outcome chapter 11 or a rule gives, and for each statement with hypotheses a witness that
meets them, clause by clause, at a boundary where the clause has one. -/

namespace Sys2Proof.Tests
open Sys2Proof Sys2Proof.Machine

-- One theorem after another: each `decide +kernel` waits for the kernel, and a thread that waits costs its stack.
set_option Elab.async false

/-! ## Well-formedness -/

theorem test_wellFormed_refuses_known_reverse_kinds :
    (Instr.unknownReverseRecord [0x30, 1]).wellFormed = false ∧
    (Instr.unknownReverseRecord [0x31]).wellFormed = false ∧
    (Instr.unknownReverseRecord [0x32]).wellFormed = false ∧
    (Instr.unknownReverseRecord [0x33]).wellFormed = true ∧ (Instr.unknownReverseRecord []).wellFormed = true := by
  decide

theorem test_wellFormed_refuses_no_bytes :
    (Instr.bytesReceived 0 []).wellFormed = false ∧ (Instr.bytesReceived 0 [0]).wellFormed = true := by decide

/-! ## The checks of section 10.1, over the ASCII bytes "123456789" -/

def digits : List Byte := [0x31, 0x32, 0x33, 0x34, 0x35, 0x36, 0x37, 0x38, 0x39]

theorem test_recordCheck_digits : recordCheck digits = 0x29B1 := by decide +kernel

theorem test_seal_digits : sealFrom sealStart digits = 0x0376E6E7 := by decide +kernel

/-! ## States -/

/-- A part in service: locked with 16 credits, port 0 ACTIVE, route 3 OPEN, the lease with LOCAL, nothing to send. -/
def live : State :=
  { (State.reset.setPort 0 { Port.reset with state := .active, aligned := true }).setRoute 3
      { Route.reset 3 with gate := .opened } with
    transmitter := { sending := .nothing, wire := [] }
    notices := { NoticeQueue.reset with nextSequence := 2 }
    link := { Link.reset 1 true with state := .locked, reverseAligned := true, trainTimer := .stopped }
    sender := { Sender.reset with credits := 16 }
    lease := { holder := some .localSource, time := 2000, timer := .running 2000 } }

/-- The state after a command. -/
def after (c : Instr) (s : State) : State :=
  match exec c s with
  | .next t => t
  | _ => s

/-- A part that has a LOCAL record with this code and these arguments to execute. -/
def asked (s : State) (code : Byte) (arguments : List Byte) : State :=
  { s with sourceLocal := { s.sourceLocal with inbox := some { sequence := 7, code, arguments } } }

theorem serves_asked (s : State) (code : Byte) (arguments : List Byte) (high : s.resetLine = .high)
    (free : s.resetPending = none) (slot : s.sourceLocal.slot = none) (other : s.sourceRemote.inbox = none) :
    Serves (asked s code arguments) .localSource { sequence := 7, code, arguments } code := by
  refine ⟨high, ?_, rfl⟩
  simp [State.nextRecord, State.arbiterChoice, SourceState.qualifies, asked, free, slot, other, State.source]

/-- The status and results of the reply a command left in the local output slot. -/
def answer (s : State) : Option (Status × List Byte) := s.sourceLocal.slot.map fun r => (r.status, r.results)

/-- A sensor header of port 0's channel 3 with its check (R183). -/
def head (code length : Nat) : Header :=
  let fields : Header := BitVec.ofNat 32 (3 + 16 * code + 1024 * length)
  fields ||| (headerCheck [headerByte fields 0, headerByte fields 1, headerByte fields 2]).setWidth 32 <<< 24

/-- The same state with another route 3. -/
def withRoute (f : Route → Route) : State := live.modifyRoute 3 f

/-- Port 0 receives a packet of channel 3 with these payload bytes and their check. -/
def receiving (s : State) (code : Nat) (payload : List Byte) : State :=
  s.modifyPort 0 fun x => { x with reception := some (packet code payload) }
where
  packet (code : Nat) (payload : List Byte) : Reception :=
    (newReception (some { channel := 3, code, length := payload.length }) .toRoute).deliver
      (payload ++ checkBytes (recordCheck payload))

def mark (number lines bytes : Nat) : List Byte := word16 number ++ word16 lines ++ word16 bytes

/-- An open frame that declares 2 lines of 600 bytes. -/
def frame : OpenFrame :=
  { number := 5, declaredLines := 2, declaredBytes := 600, received := 1, forwarded := 0, damagedLines := false,
    overrun := false, sealValue := none }

def lineInHandOf : LineInAssembly := { code := 0x10, segments := 1, payload := [1, 2] }

/-! ## Single steps -/

/-- Section 11.1: the first opening mark is queued and reserves a descriptor: free descriptors 1,022. -/
theorem test_opening_mark_admits :
    let s := after (.endEvent 0) (receiving live 0x00 (mark 0 1 1280))
    s.pool.freeDescriptors = 1022 ∧ (s.route 3).isAssembling = true := by decide +kernel

/-- Section 11.1: a line of 1,280 bytes takes 5 segments. -/
theorem test_line_header_takes_segments :
    let s := after (.headerEvent 0 (head 0x20 1280))
      (withRoute fun x => { x with assembly := .assembling { frame with declaredBytes := 1280 } none })
    s.pool.freeSegments = 2043 ∧ (s.route 3).heldSegments = 5 := by decide +kernel

/-- R11: a line longer than the declared line bytes is LONG. -/
theorem test_line_header_long :
    ((after (.headerEvent 0 (head 0x10 601))
      (withRoute fun x => { x with assembly := .assembling frame none })).port 0).counters.longLines = 1 := by
  decide +kernel

/-- R54 (section 11.1): a line at an IDLE route is an orphan. -/
theorem test_line_header_orphan :
    ((after (.headerEvent 0 (head 0x20 1280)) live).route 3).counters.orphans = 1 := by decide +kernel

/-- R58: the line record carries line index 1 and the payload without its check. -/
theorem test_line_end_forwards :
    (after (.endEvent 0) (receiving (withRoute fun x =>
      { x with assembly := .assembling frame (some lineInHandOf), heldSegments := 1 }) 0x10 [1, 2])).queue
      = [{ route := 3, trunkChannel := 3, segments := 1, body := .line 0x10 false false 1 [1, 2] }] := by
  decide +kernel

/-- R60: fewer lines received than declared is SHORT, another frame number MISMATCH. -/
theorem test_closing_mark_flags :
    (after (.endEvent 0) (receiving (withRoute fun x => { x with assembly := .assembling frame none }) 0x01
      (word16 6))).queue.map (·.body) = [.closing false false true true 5 0 none] := by decide +kernel

/-- R62 and R63: an idle expiry queues the abort mark and leaves IDLE. -/
theorem test_idle_expiry_aborts :
    let s := after (.frameIdleExpiry 3)
      (withRoute fun x => { x with assembly := .assembling frame none, idleTimer := .running 100 })
    (s.route 3).assembly = .idle ∧ s.queue.map (·.body) = [.abort .idle 5 0] := by decide +kernel

/-- Section 11.2: HOLD under an open frame makes the gate CLOSING and answers gate before OPEN, after CLOSING. -/
theorem test_hold_under_a_frame :
    answer (after .hold (asked (withRoute fun x => { x with assembly := .assembling frame none }) 0x28 [3]))
      = some (.ok, [3, 1, 2, 1, 1, 5, 0]) := by decide +kernel

/-- Section 11.2: ROUTE_WRITE at a CLOSING gate is WRONG_STATE with the gate. -/
theorem test_routeWrite_at_closing :
    answer (after .routeWrite (asked (withRoute fun x =>
      { x with gate := .closing, assembly := .assembling frame none }) 0x21 [3, 1, 45]))
      = some (.wrongState, [3, 2]) := by decide +kernel

/-- R25: SEALED with another trunk channel is SEALED_RULE, condition 3. -/
theorem test_routeWrite_sealed_rule :
    answer (after .routeWrite (asked (withRoute fun x => { x with gate := .shut }) 0x21 [3, 3, 45, 1]))
      = some (.sealedRule, [3, 3, 3]) := by decide +kernel

/-- R26: a trunk channel that another route in service holds is CLASH with that route. -/
theorem test_routeEnable_clash :
    answer (after .routeEnable (asked ((withRoute id).setRoute 9 { Route.reset 9 with
      config := { RouteConfig.reset 9 with trunkChannel := 3 } }) 0x22 [9])) = some (.clash, [3]) := by
  decide +kernel

/-- Section 10.3: IDENTIFY after the reset of section 11.1: part code 0x0416, rate 460,800, auto-train yes. -/
theorem test_identify_at_reset :
    answer (after .identify (asked State.reset 0x01 []))
      = some (.ok, [0x16, 0x04, 0x01, 1, 0, 0, 0xD0, 0x07, 1, 1, 0, 0, 0]) := by decide +kernel

/-- R158: CLAIM from REMOTE while LOCAL holds the lease is LEASE_HELD. -/
theorem test_claim_is_held :
    (after .claim { live with sourceRemote :=
      { live.sourceRemote with inbox := some { sequence := 1, code := 2, arguments := [] } } }).sender.wire.take 8
      = [0x10, 0x07, 0x02, 0x01, 0x02, 0x05, 0x01, 0xD0] := by decide +kernel

/-- R131 (section 11.1): an acknowledgement of epoch 1 locks the link and raises TRUNK_LOCKED. -/
theorem test_acknowledgement_locks :
    let s := after (.acknowledgement ((checked [0x32, 1, 0]).drop 1)) { State.reset with
      link := { State.reset.link with reverseAligned := true } }
    s.link.state = .locked ∧ s.notices.held.map (·.info) = [.resetDone .powerOn 1, .trunkLocked 1] := by
  decide +kernel

/-- R118: the balance stops at 1,023. -/
theorem test_grant_clamps :
    (after (.creditGrant ((checked [0x30, 255]).drop 1)) { live with
      sender := { live.sender with credits := 1000 } }).sender.credits = 1023 := by decide +kernel

/-- R80: a completion returns the segments to the route that held them. -/
theorem test_completion_returns_segments :
    let s := after (.transmissionCompletion strapsAtReset) { (withRoute fun x => { x with heldSegments := 5 }) with
      queue := [{ route := 3, trunkChannel := 3, segments := 5, body := .side 8 false [] }]
      sender := { live.sender with inFlight := .stream } }
    s.queue = [] ∧ (s.route 3).heldSegments = 0 := by decide +kernel

/-- R163: a pin reset sets the next epoch, and 65,535 is followed by 1. -/
theorem test_pin_reset_epoch :
    (after (.resetNReleased strapsAtReset) { live with resetLine := .low }).link.epoch = 2 ∧
    (after (.resetNReleased strapsAtReset) { live with
      resetLine := .low, link := { live.link with epoch := 65535 } }).link.epoch = 1 := by decide +kernel

/-- R169 (section 11.5): an acknowledgement that makes room queues NOTICES_LOST. -/
theorem test_noticeAck_delivers_lost :
    (after .noticeAck (asked { live with notices := { live.notices with
      held := [{ sequence := 116, info := .trunkDown, sent := true }], nextSequence := 117, lost := 2 } } 0x50
      (word16 116))).notices.held.map (·.info) = [.noticesLost 2] := by decide +kernel

/-! ## Witnesses

One theorem for each statement with hypotheses: states and operands that meet them, clause by clause. -/

def one : Notice := { sequence := 2, info := .trunkDown, sent := false }

def answered : Reply := { sequence := 7, code := 1, status := .ok, results := [] }

def record8 : StreamRecord := { route := 3, trunkChannel := 3, segments := 5, body := .side 8 false [] }

theorem untested_of_none {x : Route} (h : x.holdPoint = none) (c : HoldCondition) : x.Untested c :=
  fun y hy => by rw [h] at hy; cases hy

theorem witness_FrontCommandRuns : State.reset.pending = [] := rfl

theorem witness_EndOfEventStartsTheControlPort :
    State.reset.transmitter.sending ≠ .nothing ∧
    (let s := { live with sourceLocal := { live.sourceLocal with slot := some answered } }
     s.transmitter.sending = .nothing ∧ s.sourceLocal.slot = some answered) ∧
    (let s := { live with notices := { live.notices with held := [one] } }
     s.transmitter.sending = .nothing ∧ s.sourceLocal.slot = none ∧ s.notices.destination = .localSource ∧
       s.Offers one) ∧
    (live.transmitter.sending = .nothing ∧ live.sourceLocal.slot = none ∧ live.OffersNone) := by
  refine ⟨by decide, by decide, ⟨by decide, by decide, by decide, [], [], rfl, ?_, by simp⟩, by decide, by decide, ?_⟩
  · exact ⟨rfl, by decide, by decide⟩
  · intro m hm; cases hm

theorem witness_EndOfEventStartsTheSender :
    State.reset.link.state ≠ .locked ∧
    (let s := { live with sourceRemote := { live.sourceRemote with slot := some answered } }
     s.sender.inFlight = .nothing ∧ s.link.state = .locked ∧ s.sourceRemote.slot = some answered) ∧
    (let s := { live with notices := { live.notices with held := [one], destination := .remoteSource } }
     s.sender.inFlight = .nothing ∧ s.link.state = .locked ∧ s.sourceRemote.slot = none ∧
       s.notices.destination = .remoteSource ∧ s.Offers one) ∧
    (let s := { live with queue := [record8], sender := { live.sender with credits := 1 } }
     s.sender.inFlight = .nothing ∧ s.link.state = .locked ∧ s.sourceRemote.slot = none ∧
       s.notices.destination ≠ .remoteSource ∧ s.queue = [record8] ∧ 1 ≤ s.sender.credits) ∧
    (let s := { live with queue := [record8], sender := { live.sender with credits := 0 } }
     s.sender.inFlight = .nothing ∧ s.link.state = .locked ∧ s.sourceRemote.slot = none ∧
       s.notices.destination ≠ .remoteSource ∧ s.sender.credits = 0) := by
  refine ⟨by decide, by decide, ⟨by decide, by decide, by decide, by decide, [], [], rfl, ?_, by simp⟩, by decide,
    by decide⟩
  exact ⟨rfl, by decide, by decide⟩

theorem witness_ReplyIsPlacedAndCached :
    live.lease.holder = some .localSource ∧ live.lease.holder ≠ some .remoteSource := by decide

theorem witness_RaisedNoticeIsHeldOrCounted :
    NoticeQueue.reset.mask.masks (.frameAborted 3 5 .idle) = true ∧
    (let q := { NoticeQueue.reset with held := List.replicate 15 one, nextSequence := 65535 }
     q.mask.masks .trunkDown = false ∧ q.held.length < 16 ∧ (q.nextSequence = 1 → q.held = [])) ∧
    (let q := { NoticeQueue.reset with held := List.replicate 16 one, nextSequence := 20, lost := 65535 }
     q.mask.masks .trunkDown = false ∧ ¬(q.held.length < 16 ∧ (q.nextSequence = 1 → q.held = []))) ∧
    (let q := { NoticeQueue.reset with held := [one] }
     q.mask.masks .trunkDown = false ∧ ¬(q.held.length < 16 ∧ (q.nextSequence = 1 → q.held = []))) := by decide

/-! ### Ingress and frame assembly -/

/-- `live` with another port 0. -/
def withPort (f : Port → Port) : State := live.modifyPort 0 f

theorem witness_AlignmentEventsMoveThePort :
    (live.resetLine = .high ∧ (live.port 0).state ≠ .off) ∧
    (let s := withPort fun x => { x with state := .seeking }
     s.resetLine = .high ∧ (s.port 0).state = .seeking) ∧
    (let s := withPort fun x => { x with state := .lost }
     s.resetLine = .high ∧ (s.port 0).state = .lost) ∧
    (live.resetLine = .high ∧ (live.port 0).state = .active) := by decide +kernel

theorem headerComes_live : HeaderComes live 0 := ⟨by decide, by decide, by decide, by decide⟩

theorem witness_FailedHeaderIsCountedAndDiscarded :
    HeaderComes live 0 ∧
    headerCheck [headerByte 0#32 0, headerByte 0#32 1, headerByte 0#32 2] ≠ headerByte 0#32 3 ∧
    8192 < headerLength (head 0x10 8193) :=
  ⟨headerComes_live, by decide +kernel, by decide +kernel⟩

theorem witness_GoodHeaderIsClassified :
    HeaderComes live 0 ∧
    (headerPasses (head 0x02 0) = true ∧ headerFields (head 0x02 0) = { channel := 3, code := 0x02, length := 0 }) ∧
    (headerPasses (head 0x07 0) = true ∧ (headerFields (head 0x07 0)).code = 0x07) ∧
    (let s := withRoute fun x => { x with gate := .disabled }
     headerPasses (head 0x08 0) = true ∧ (headerFields (head 0x08 0)).code = 0x08 ∧
       (s.route 3).gate = .disabled) ∧
    (headerPasses (head 0x01 2) = true ∧ (headerFields (head 0x01 2)).code = 0x01 ∧
      (live.route 3).gate ≠ .disabled) ∧
    (let s := withRoute fun x => { x with assembly := .skipping }
     headerPasses (head 0x3F 8192) = true ∧ (headerFields (head 0x3F 8192)).code = 0x3F ∧
       (s.route 3).assembly = .skipping ∧ (s.route 3).gate ≠ .disabled) ∧
    (live.route 3).assembly = .idle :=
  ⟨headerComes_live, by decide +kernel, by decide +kernel, by decide +kernel, by decide +kernel, by decide +kernel,
    by decide +kernel⟩

/-- Route 3 ASSEMBLING `frame`, which has one more line to come, with the pool and the cap at the limit for a line of
256 bytes. -/
def tight : State :=
  { withRoute fun x => { x with assembly := .assembling frame none, heldSegments := 511 } with
    pool := { freeSegments := 1, freeDescriptors := 1, segmentLowMark := 1, descriptorLowMark := 1 } }

theorem headerComes_tight : HeaderComes tight 0 :=
  ⟨by decide +kernel, by decide +kernel, by decide +kernel, by decide +kernel⟩

theorem witness_HeaderBecomesTheLineInAssembly :
    HeaderComes tight 0 ∧ headerPasses (head 0x10 256) = true ∧
    headerFields (head 0x10 256) = { channel := 3, code := 0x10, length := 256 } ∧
    (tight.route 3).gate ≠ .disabled ∧ (tight.route 3).assembly = .assembling frame none ∧
    (tight.route 3).Untested (.content 0x10) ∧ frame.received < frame.declaredLines ∧
    (tight.route 3).config.filter = [] ∧ Allocates tight 3 (segmentsNeeded 256) :=
  ⟨headerComes_tight, by decide +kernel, by decide +kernel, by decide +kernel, by decide +kernel,
    untested_of_none (by decide +kernel) _, by decide, by decide +kernel,
    by decide +kernel, by decide +kernel, by decide +kernel⟩

theorem witness_HeaderIsOverrunFilteredOrStarved :
    (let s := withRoute fun x => { x with assembly := .assembling { frame with received := 2 } none }
     HeaderComes s 0 ∧ headerPasses (head 0x10 0) = true ∧ (headerFields (head 0x10 0)).code = 0x10 ∧
       (s.route 3).gate ≠ .disabled ∧ (s.route 3).assembly = .assembling { frame with received := 2 } none ∧
       (s.route 3).Untested (.content 0x10)) ∧
    (let s := withRoute fun x =>
       { x with assembly := .assembling frame none, config := { x.config with filter := [0x11] } }
     HeaderComes s 0 ∧ (s.route 3).assembly = .assembling frame none ∧ (s.route 3).Untested (.content 0x10) ∧
       (s.route 3).config.filter ≠ [] ∧ 0x10 ∉ (s.route 3).config.filter) ∧
    (HeaderComes tight 0 ∧ headerPasses (head 0x10 257) = true ∧ (headerFields (head 0x10 257)).length = 257 ∧
      (tight.route 3).config.filter = [] ∧ ¬ Allocates tight 3 (segmentsNeeded 257)) := by
  refine ⟨⟨?_, by decide +kernel, by decide +kernel, by decide +kernel, by decide +kernel,
      untested_of_none (by decide +kernel) _⟩,
    ⟨?_, by decide +kernel, untested_of_none (by decide +kernel) _, by decide +kernel, by decide +kernel⟩,
    headerComes_tight, by decide +kernel, by decide +kernel, by decide +kernel, ?_⟩
  · exact ⟨by decide +kernel, by decide +kernel, by decide +kernel, by decide +kernel⟩
  · exact ⟨by decide +kernel, by decide +kernel, by decide +kernel, by decide +kernel⟩
  · unfold Allocates; decide +kernel

theorem witness_PayloadBytesAreCollected :
    (let s := receiving (withRoute fun x => { x with assembly := .assembling frame (some lineInHandOf) }) 0x10 [1]
     s.resetLine = .high ∧ (s.port 0).reception = some (receiving.packet 0x10 [1]) ∧
       (receiving.packet 0x10 [1]).disposition = .toRoute ∧
       (receiving.packet 0x10 [1]).header = some { channel := 3, code := 0x10, length := 1 } ∧
       (s.route 3).assembly = .assembling frame (some lineInHandOf)) ∧
    (let x := newReception none .headerError
     let s := withPort fun y => { y with reception := some x }
     s.resetLine = .high ∧ (s.port 0).reception = some x ∧ x.disposition ≠ .toRoute) := by decide +kernel

theorem witness_DeliveredPacketIsJudged :
    (∀ n, n ≤ 65533 → (List.replicate n (0 : Byte)).length ≤ 65533) ∧
    ({ channel := 3, code := 0x10, length := 65532 } : PacketHeader).length < 65533 ∧
    ([] : List Byte).length ≤ 1 ∧ [(5 : Byte)].length ≤ 1 ∧
    (receiving.packet 0x00 (mark 5 1 1)).openingMark { channel := 3, code := 0, length := 6 }
      = some { number := 5, declaredLines := 1, declaredBytes := 1 } ∧
    (receiving.packet 0x00 (mark 5 4095 8192)).openingMark { channel := 3, code := 0, length := 6 }
      = some { number := 5, declaredLines := 4095, declaredBytes := 8192 } ∧
    (receiving.packet 0x01 (word16 5)).closingMark { channel := 3, code := 1, length := 2 } = some 5 ∧
    (mark 5 1 1 ++ [0, 0, 0]).length ≠ 8 ∧ (mark 5 1 1 ++ [0]).length ≠ 8 ∧ (word16 5 ++ [0]).length ≠ 4 :=
  ⟨fun n h => by rw [List.length_replicate]; exact h, by decide +kernel⟩

/-- R12: a payload byte more or less than the header length is not intact, its check right. -/
theorem test_payload_count_is_judged :
    let header : PacketHeader := { channel := 3, code := 0x10, length := 2 }
    (receiving.packet 0x10 [1, 2]).intact header = true ∧ (receiving.packet 0x10 [1, 2, 3]).intact header = false ∧
    (receiving.packet 0x10 [1]).intact header = false ∧
    (receiving.packet 0x10 [1]).checkMatches = true := by decide +kernel

theorem witness_SensorHeaderFieldsReadBack : (63 : Nat) < 64 ∧ (16383 : Nat) < 16384 := by decide

/-- A packet of port 0's channel 3 has come whole in this state. -/
def Ends (s : State) (code : Nat) (payload : List Byte) : Prop :=
  PacketEnds (receiving s code payload) 0 (receiving.packet code payload)
    { channel := 3, code, length := payload.length }

theorem ends (s : State) (code : Nat) (payload : List Byte) (h : s.resetLine = .high) : Ends s code payload := by
  refine ⟨h, ?_, rfl, rfl⟩
  simp [receiving]

/-- An opening mark of frame 5, and what it reads as. -/
def markOf5 : List Byte := mark 5 2 600

theorem markOf5_reads : (receiving.packet 0x00 markOf5).openingMark { channel := 3, code := 0, length := 6 }
    = some { number := 5, declaredLines := 2, declaredBytes := 600 } := by decide +kernel

/-- Route 3 at the limit of the admission test: free segments at the floor, the cap reached with the floor, two free
descriptors. -/
def admitting (gate : Gate) (holdPoint : Option HoldPoint) : State :=
  { withRoute fun x => { x with gate, holdPoint, heldSegments := 480 } with
    pool := { freeSegments := 32, freeDescriptors := 2, segmentLowMark := 0, descriptorLowMark := 0 } }

/-- The same with frame 5 still open, so that the mark truncates it. -/
def truncating (gate : Gate) (holdPoint : Option HoldPoint) : State :=
  (admitting gate holdPoint).modifyRoute 3 fun x => { x with assembly := .assembling frame none }

/-- Route 3 once the mark's truncation is done: its gate, and whether it passes the admission test. -/
def Meets (s : State) (gate : Gate) (passes : Bool) : Prop :=
  let y := s.route 3
  (y.ended .truncated).gate = gate ∧
    ((s.pool.freed y.lineSegments y.linesInAssembly).Admits (y.ended .truncated) ↔ passes = true)

theorem witness_OpeningMarkAdmits :
    (let s := admitting .opened none
     Ends s 0x00 markOf5 ∧ Meets (receiving s 0x00 markOf5) .opened true ∧ (s.route 3).Untested (.frameNumber 5)) ∧
    (let s := admitting .stepping none
     Ends s 0x00 markOf5 ∧ Meets (receiving s 0x00 markOf5) .stepping true) ∧
    (let s := truncating .opened none
     Ends s 0x00 markOf5 ∧ Meets (receiving s 0x00 markOf5) .opened true ∧ (s.route 3).Untested (.frameNumber 5)) := by
  refine ⟨⟨ends _ _ _ (by decide +kernel), ?_, untested_of_none (by decide +kernel) _⟩,
    ⟨ends _ _ _ (by decide +kernel), ?_⟩, ends _ _ _ (by decide +kernel), ?_, untested_of_none (by decide +kernel) _⟩
  all_goals unfold Meets Pool.Admits; decide +kernel

/-- One descriptor short of the admission test. -/
def refusing (gate : Gate) (holdPoint : Option HoldPoint) : State :=
  { truncating gate holdPoint with pool := { live.pool with freeDescriptors := 1 } }

theorem witness_OpeningMarkIsRefusedHeldOffOrTruncates :
    (let s := withRoute fun x => { x with gate := .shut }
     Ends s 0x00 markOf5 ∧ (((receiving s 0x00 markOf5).route 3).ended .truncated).gate = .shut) ∧
    (let s := truncating .stepping none
     Ends s 0x00 markOf5 ∧ (((receiving s 0x00 markOf5).route 3).ended .truncated).gate = .shut) ∧
    (let s := truncating .closing none
     Ends s 0x00 markOf5 ∧ (((receiving s 0x00 markOf5).route 3).ended .truncated).gate = .shut) ∧
    (let s := refusing .opened none
     Ends s 0x00 markOf5 ∧ Meets (receiving s 0x00 markOf5) .opened false ∧
       ((receiving s 0x00 markOf5).route 3).Untested (.frameNumber 5)) := by
  refine ⟨⟨ends _ _ _ (by decide +kernel), by decide +kernel⟩, ⟨ends _ _ _ (by decide +kernel), by decide +kernel⟩,
    ⟨ends _ _ _ (by decide +kernel), by decide +kernel⟩,
    ends _ _ _ (by decide +kernel), ?_, untested_of_none (by decide +kernel) _⟩
  unfold Meets Pool.Admits; decide +kernel

/-- Route 3 ASSEMBLING `frame` with a line in assembly. -/
def lined (policy : DamagePolicy) (holdPoint : Option HoldPoint) : State :=
  withRoute fun x =>
    { x with
      assembly := .assembling frame (some lineInHandOf), heldSegments := 1, holdPoint,
      config := { x.config with policy } }

theorem witness_LineEndForwardsOrAborts :
    (Ends (withRoute fun x => { x with assembly := .skipping }) 0x08 [] ∧
      ((withRoute fun x => { x with assembly := .skipping }).route 3).assembly = .skipping) ∧
    (Ends live 0x3F [1] ∧ (live.route 3).assembly = .idle) ∧
    (Ends (withRoute fun x => { x with assembly := .assembling frame none }) 0x10 [1] ∧
      ((withRoute fun x => { x with assembly := .assembling frame none }).route 3).assembly
        = .assembling frame none) ∧
    (Ends (lined .abort none) 0x10 [1, 2] ∧
      ((receiving (lined .abort none) 0x10 [1, 2]).route 3).assembly = .assembling frame (some lineInHandOf) ∧
      (receiving.packet 0x10 [1, 2]).intact { channel := 3, code := 0x10, length := 2 } = true ∧
      (receiving.packet 0x10 [1, 2]).long = false) ∧
    (Ends (lined .forward none) 0x08 [] ∧ ((lined .forward none).route 3).Untested .damage ∧
      ((lined .forward none).route 3).config.policy = .forward) ∧
    (let x := { receiving.packet 0x10 [1, 2] with long := true }
     let s := (lined .abort none).modifyPort 0 fun y => { y with reception := some x }
     PacketEnds s 0 x { channel := 3, code := 0x10, length := 2 } ∧ x.long = true ∧
       (s.route 3).Untested .damage ∧ (s.route 3).config.policy = .abort) := by
  refine ⟨⟨ends _ _ _ (by decide +kernel), by decide +kernel⟩, ⟨ends _ _ _ (by decide +kernel), by decide +kernel⟩,
    ⟨ends _ _ _ (by decide +kernel), by decide +kernel⟩,
    ⟨ends _ _ _ (by decide +kernel), by decide +kernel, by decide +kernel, by decide +kernel⟩,
    ⟨ends _ _ _ (by decide +kernel), untested_of_none (by decide +kernel) _, by decide +kernel⟩,
    ⟨by decide +kernel, by decide +kernel, by decide +kernel, by decide +kernel⟩, by decide +kernel,
    untested_of_none (by decide +kernel) _, by decide +kernel⟩

theorem witness_ClosingMarkCloses :
    (receiving.packet 0x01 (word16 5)).closingMark { channel := 3, code := 1, length := 2 } = some 5 ∧
    (let s := withRoute fun x => { x with assembly := .assembling frame none }
     Ends s 0x01 (word16 5) ∧ ((receiving s 0x01 (word16 5)).route 3).assembly = .assembling frame none) ∧
    (let s := withRoute fun x => { x with assembly := .skipping }
     Ends s 0x01 (word16 5) ∧ ((receiving s 0x01 (word16 5)).route 3).assembly = .skipping) ∧
    (Ends live 0x01 (word16 5) ∧ ((receiving live 0x01 (word16 5)).route 3).assembly = .idle) :=
  ⟨by decide +kernel, ⟨ends _ _ _ (by decide +kernel), by decide +kernel⟩,
    ⟨ends _ _ _ (by decide +kernel), by decide +kernel⟩, ends _ _ _ (by decide +kernel), by decide +kernel⟩

theorem witness_OtherPacketsJustEnd :
    (Ends live 0x00 (mark 5 0 1) ∧
      (receiving.packet 0x00 (mark 5 0 1)).openingMark { channel := 3, code := 0, length := 6 } = none) ∧
    (Ends live 0x01 [5] ∧
      (receiving.packet 0x01 [5]).closingMark { channel := 3, code := 1, length := 1 } = none) ∧
    (let x := { newReception none .unrouted with disabledMeanwhile := true }
     let s := withPort fun y => { y with reception := some x }
     s.resetLine = .high ∧ (s.port 0).reception = some x ∧ x.disposition ≠ .toRoute) :=
  ⟨⟨ends _ _ _ (by decide +kernel), by decide +kernel⟩, ⟨ends _ _ _ (by decide +kernel), by decide +kernel⟩,
    by decide +kernel⟩

/-- An armed hold point. -/
def armed (kind : HoldKind) (condition : HoldCondition) : Option HoldPoint := some { kind, condition, armed := true }

/-- Route 3 ASSEMBLING `frame` with an armed CONTENT hold point on code 0x08. -/
def watching (kind : HoldKind) : State :=
  withRoute fun x => { x with assembly := .assembling frame none, holdPoint := armed kind (.content 0x08) }

theorem witness_TagHoldPointStopsTheFrame :
    (let s := truncating .opened (armed .tag (.frameNumber 5))
     Ends s 0x00 markOf5 ∧ (((receiving s 0x00 markOf5).route 3).ended .truncated).gate = .opened ∧
       (s.route 3).HasArmed .tag (.frameNumber 5)) ∧
    (let s := admitting .stepping (armed .tag (.frameNumber 65535))
     Ends s 0x00 (mark 65535 2 600) ∧
       (((receiving s 0x00 (mark 65535 2 600)).route 3).ended .truncated).gate = .stepping ∧
       (s.route 3).HasArmed .tag (.frameNumber 65535)) ∧
    (HeaderComes (watching .tag) 0 ∧ headerPasses (head 0x08 8192) = true ∧
      (headerFields (head 0x08 8192)).code = 0x08 ∧ ((watching .tag).route 3).gate ≠ .disabled ∧
      ((watching .tag).route 3).assembly = .assembling frame none ∧
      ((watching .tag).route 3).HasArmed .tag (.content 0x08)) ∧
    (let s := lined .forward (armed .tag .damage)
     let x := { receiving.packet 0x10 [1, 2] with long := true }
     PacketEnds (s.modifyPort 0 fun y => { y with reception := some x }) 0 x
         { channel := 3, code := 0x10, length := 2 } ∧
       (s.route 3).assembly = .assembling frame (some lineInHandOf) ∧ (s.route 3).HasArmed .tag .damage) := by
  refine ⟨⟨ends _ _ _ (by decide +kernel), by decide +kernel, ?_⟩,
    ⟨ends _ _ _ (by decide +kernel), by decide +kernel, ?_⟩,
    ⟨⟨by decide +kernel, by decide +kernel, by decide +kernel, by decide +kernel⟩, by decide +kernel, by decide +kernel,
      by decide +kernel, by decide +kernel, ?_⟩,
    ⟨by decide +kernel, by decide +kernel, by decide +kernel, by decide +kernel⟩, by decide +kernel, ?_⟩
  all_goals unfold Route.HasArmed; decide +kernel

theorem witness_ForceHoldPointClosesTheGate :
    (let s := admitting .stepping (armed .force (.frameNumber 5))
     Ends s 0x00 markOf5 ∧ Meets (receiving s 0x00 markOf5) .stepping true ∧
       (s.route 3).HasArmed .force (.frameNumber 5)) ∧
    (let s := truncating .opened (armed .force (.frameNumber 5))
     Ends s 0x00 markOf5 ∧ Meets (receiving s 0x00 markOf5) .opened true ∧
       (s.route 3).HasArmed .force (.frameNumber 5)) ∧
    (let s := refusing .opened (armed .force (.frameNumber 5))
     Ends s 0x00 markOf5 ∧ Meets (receiving s 0x00 markOf5) .opened false ∧
       (s.route 3).HasArmed .force (.frameNumber 5)) ∧
    (HeaderComes (watching .force) 0 ∧ ((watching .force).port 0).state = .active ∧
      ((watching .force).route 3).HasArmed .force (.content 0x08)) ∧
    (let s := lined .abort (armed .force .damage)
     let x := { receiving.packet 0x10 [1, 2] with long := true }
     PacketEnds (s.modifyPort 0 fun y => { y with reception := some x }) 0 x
         { channel := 3, code := 0x10, length := 2 } ∧
       (s.route 3).assembly = .assembling frame (some lineInHandOf) ∧ (s.route 3).HasArmed .force .damage) := by
  refine ⟨⟨ends _ _ _ (by decide +kernel), ?_, ?_⟩, ⟨ends _ _ _ (by decide +kernel), ?_, ?_⟩,
    ⟨ends _ _ _ (by decide +kernel), ?_, ?_⟩,
    ⟨⟨by decide +kernel, by decide +kernel, by decide +kernel, by decide +kernel⟩, by decide +kernel, ?_⟩,
    ⟨by decide +kernel, by decide +kernel, by decide +kernel, by decide +kernel⟩, by decide +kernel, ?_⟩
  all_goals first
    | (unfold Route.HasArmed; decide +kernel)
    | (unfold Meets Pool.Admits; decide +kernel)

/-- R93 and R99: HOLD_FIRED is the first notice of its event, before the truncation's FRAME_ABORTED. -/
theorem test_hold_fired_comes_first :
    let unmasked : NoticeQueue := { live.notices with mask := { KindMask.reset with frameAborted := false } }
    let kinds (holdPoint : Option HoldPoint) :=
      (after (.endEvent 0)
        (receiving { truncating .opened holdPoint with notices := unmasked } 0x00 markOf5)).notices.held.map (·.info)
    kinds (armed .tag (.frameNumber 5))
      = [.holdFired 3 5 .tag .frameNumber, .frameAborted 3 5 .truncated, .routeShut 3 .tag (some 5)] ∧
    kinds (armed .force (.frameNumber 5)) = [.holdFired 3 5 .force .frameNumber, .frameAborted 3 5 .truncated] := by
  decide +kernel

/-! ### The control port and the executor -/

/-- `live` in IN_RECORD. -/
def inRecord (position : Position) (length : Option Nat) (record : List Byte) : State :=
  { live with receiver := { state := .inRecord, position, length, record, gapTimer := .running 4 } }

/-- The covered bytes of an IDENTIFY under sequence 7, and of a record of another type. -/
def identify7 : List Byte := [3, 1, 7, 1]

def other7 : List Byte := [3, 2, 7, 1]

/-- The hypotheses of a judged record, clause by clause: a wrong check, another type, and for a good record a full
inbox, the cached sequence with the output slot full and with it empty, and a fresh sequence. -/
theorem witness_JudgedAndDelivered :
    checkBytes (recordCheck identify7) ≠ [0, 0] ∧
    (∃ lo hi, checkBytes (recordCheck other7) = [lo, hi] ∧ (other7.drop 1).head? ≠ some 0x01) ∧
    (∃ lo hi, checkBytes (recordCheck identify7) = [lo, hi] ∧ identify7.drop 1 = 0x01 :: 7 :: 1 :: []) ∧
    (let x := { SourceState.reset with inbox := some { sequence := 6, code := 1, arguments := [] } }
     x.inbox ≠ none) ∧
    (let x := { SourceState.reset with slot := some answered, cache := some answered }
     x.slot ≠ none ∧ ∃ reply, x.cache = some reply ∧ reply.sequence = 7) ∧
    (let x := { SourceState.reset with cache := some answered }
     x.inbox = none ∧ x.slot = none ∧ x.cache = some answered ∧ answered.sequence = 7) ∧
    (SourceState.reset.inbox = none ∧ SourceState.reset.cache = none) :=
  ⟨by decide +kernel, ⟨_, _, rfl, by decide⟩, ⟨_, _, rfl, rfl⟩, by decide, ⟨by decide, answered, rfl, rfl⟩, by decide,
    by decide⟩

theorem witness_ControlPortCharactersAreFramed :
    (live.resetLine = .high ∧ live.receiver.state = .idle ∧ (0x7D : Byte) ≠ 0x7E) ∧
    (let s := inRecord .length none []
     s.resetLine = .high ∧ s.receiver.state = .inRecord ∧ s.receiver.position = .length ∧ (2 : Byte).toNat < 3 ∧
       240 < (241 : Byte).toNat ∧ 3 ≤ (3 : Byte).toNat ∧ (240 : Byte).toNat ≤ 240 ∧
       s.receiver.gapTimer.isRunning = true) ∧
    (let s := inRecord .body (some 3) [3, 1, 7]
     s.receiver.state = .inRecord ∧ s.receiver.length = some 3 ∧ s.receiver.position = .body ∧
       s.receiver.record.length = 3) ∧
    (let s := inRecord .body (some 3) [3, 1]
     s.receiver.position = .body ∧ s.receiver.record.length ≠ 3) ∧
    (let s := inRecord .check (some 3) identify7
     s.receiver.position = .check ∧ s.receiver.record.length ≠ 3 + 2) ∧
    (let s := inRecord .check (some 3) (identify7 ++ [0])
     s.receiver.length = some 3 ∧ s.receiver.position = .check ∧ identify7.length = 3 + 1 ∧
       s.receiver.record = identify7 ++ [0]) := by decide

/-- R148: a wrong check discards the record and moves BAD_CHECK; a good record goes to the inbox. -/
theorem test_last_check_character :
    let judged (check : List Byte) :=
      (after (.characterReceived (check.getD 1 0) true)
        (inRecord .check (some 3) (identify7 ++ check.take 1))).sourceLocal
    (judged [0, 0]).counters.badCheck = 1 ∧ (judged [0, 0]).inbox = none ∧
    (judged (checkBytes (recordCheck identify7))).inbox = some { sequence := 7, code := 1, arguments := [] } := by
  decide +kernel

theorem witness_RecordSentIsRecordReceived :
    live.resetLine = .high ∧ live.receiver.state = .idle ∧ live.sourceLocal.inbox = none ∧
    (∀ reply, live.sourceLocal.cache = some reply → reply.sequence ≠ 7) ∧
    (List.replicate 237 (0x7E : Byte)).length ≤ 237 :=
  ⟨by decide, by decide, by decide, (fun _ h => nomatch h), Nat.le_of_eq List.length_replicate⟩

theorem witness_ControlPortCompletionFreesThePort :
    (let s := { live with
       transmitter := { sending := .reply, wire := [] }
       resetPending := some { source := .remoteSource, grace := .running 10 } }
     s.resetLine = .high ∧ s.transmitter.sending = .reply ∧
       ∀ pending, s.resetPending = some pending → pending.source ≠ .localSource) ∧
    (State.reset.resetLine = .high ∧ State.reset.transmitter.sending = .notice 1) := by
  refine ⟨⟨by decide, by decide, ?_⟩, by decide⟩
  intro pending h
  cases h
  decide

theorem witness_RemoteRecordIsCheckedAndDelivered :
    live.resetLine = .high ∧ live.link.state = .locked ∧
    (([] : List Byte).length < 3 ∧ ([3] : List Byte).length < 3 ∧ ([3, 1] : List Byte).length < 3) ∧
    (([1, 7] : List Byte).length ≠ (3 : Byte).toNat ∧ (2 : Byte).toNat < 3 ∧ 240 < (241 : Byte).toNat) ∧
    (identify7.drop 1).length = (3 : Byte).toNat ∧ (other7.drop 1).length = (3 : Byte).toNat ∧
    (List.replicate 240 (1 : Byte)).length = (240 : Byte).toNat :=
  ⟨by decide, by decide, by decide, by decide, by decide, by decide, List.length_replicate⟩

/-- The executor takes LOCAL records from this state. -/
def Ready (s : State) : Prop :=
  s.resetLine = .high ∧ s.resetPending = none ∧ s.sourceLocal.slot = none ∧ s.sourceRemote.inbox = none

/-- The record that `asked` puts into the local inbox is served next. -/
def Asks (s : State) (code : Byte) (arguments : List Byte) : Prop :=
  Serves (asked s code arguments) .localSource { sequence := 7, code, arguments } code

theorem asks (s : State) (code : Byte) (arguments : List Byte) (h : Ready s) : Asks s code arguments :=
  serves_asked s code arguments h.1 h.2.1 h.2.2.1 h.2.2.2

theorem ready_live : Ready live := ⟨by decide, by decide, by decide, by decide⟩

theorem ready_route (f : Route → Route) : Ready (withRoute f) := ready_live

theorem ready_port (f : Port → Port) : Ready (withPort f) := ready_live

/-- `live` without a lease holder. -/
def unleased : State := { live with lease := { live.lease with holder := none, timer := .stopped } }

theorem ready_unleased : Ready unleased := ready_live

/-- `live` with the lease at REMOTE. -/
def remoteLease : State := { live with lease := { live.lease with holder := some .remoteSource } }

theorem ready_remoteLease : Ready remoteLease := ready_live

theorem witness_CommonChecksComeFirst :
    (Asks live 0x00 [] ∧ (0x00 : Byte) ∉ commandCodes ∧ (0x61 : Byte) ∉ commandCodes) ∧
    ((Instr.routeWrite, (0x21 : Byte)) ∈ leaseCommands ∧ Asks unleased 0x21 [] ∧
      unleased.lease.holder ≠ some .localSource) ∧
    ((Instr.step, (0x2A : Byte)) ∈ gateCommands ∧ Asks remoteLease 0x2A [byte 63] ∧
      remoteLease.lease.holder ≠ some .localSource ∧ 63 < 64) ∧
    ((Instr.hold, (0x28 : Byte)) ∈ gateCommands ∧ Asks remoteLease 0x28 [] ∧ Asks unleased 0x28 [64] ∧
      Asks unleased 0x28 [3, 0] ∧ (∀ r : Fin 64, ([] : List Byte) ≠ [byte r.val]) ∧
      (∀ r : Fin 64, ([64] : List Byte) ≠ [byte r.val]) ∧ ∀ r : Fin 64, ([3, 0] : List Byte) ≠ [byte r.val]) ∧
    ((Instr.noticeAck, (0x50 : Byte), 2) ∈ openCommands ∧ Asks live 0x50 [1] ∧ ([1] : List Byte).length ≠ 2) ∧
    ((Instr.resetPart, (0x05 : Byte), 0) ∈ fixedLeaseCommands ∧ Asks live 0x05 [1] ∧
      live.lease.holder = some .localSource ∧ ([1] : List Byte).length ≠ 0) ∧
    ((Instr.release, (0x29 : Byte)) ∈ gateCommands ∧ Asks live 0x29 [64] ∧ routeOutOfRange [64]) :=
  ⟨⟨asks _ _ _ ready_live, by decide, by decide⟩, ⟨by decide, asks _ _ _ ready_unleased, by decide⟩,
    ⟨by decide, asks _ _ _ ready_remoteLease, by decide, by decide⟩,
    ⟨by decide, asks _ _ _ ready_remoteLease, asks _ _ _ ready_unleased, asks _ _ _ ready_unleased, by decide,
      by decide, by decide⟩, ⟨by decide, asks _ _ _ ready_live, by decide⟩,
    ⟨by decide, asks _ _ _ ready_live, by decide, by decide⟩, by decide, asks _ _ _ ready_live, 64, rfl, by decide⟩

theorem witness_PartReadsReport :
    Asks live 0x01 [] ∧ Asks live 0x24 [] ∧ Asks live 0x30 [0] ∧ Asks live 0x40 [] :=
  ⟨asks _ _ _ ready_live, asks _ _ _ ready_live, asks _ _ _ ready_live, asks _ _ _ ready_live⟩

theorem witness_EntryReadsReport :
    Asks live 0x11 [byte 3] ∧ Asks live 0x20 [byte 63] ∧
    (Asks live 0x60 [0, 63, 0] ∧ (CounterScope.route 63).bytes ++ [0] = [0, 63, 0] ∧
      CounterScope.route 63 ≠ .trunk) ∧
    Asks live 0x60 [2, 0] ∧
    (Asks live 0x11 [byte 4] ∧ Asks live 0x11 [byte 255]) ∧ (Asks live 0x20 [byte 64] ∧ Asks live 0x20 [byte 255]) :=
  ⟨asks _ _ _ ready_live, asks _ _ _ ready_live, ⟨asks _ _ _ ready_live, by decide, by decide⟩,
    asks _ _ _ ready_live, ⟨asks _ _ _ ready_live, asks _ _ _ ready_live⟩,
    asks _ _ _ ready_live, asks _ _ _ ready_live⟩

theorem witness_LeaseIsClaimedDroppedAndTimed :
    (Asks live 0x02 [] ∧ (asked live 0x02 []).lease.holder = some .localSource) ∧
    (Asks unleased 0x02 [] ∧ (asked unleased 0x02 []).lease.holder = none) ∧
    (Asks remoteLease 0x02 [] ∧ (asked remoteLease 0x02 []).lease.holder = some .remoteSource) ∧
    Asks live 0x03 [] ∧ Asks unleased 0x03 [] ∧ Asks live 0x04 (word16 100) ∧ Asks live 0x04 (word16 60000) ∧
    Asks live 0x04 (word16 99) ∧ Asks live 0x04 (word16 60001) ∧ Asks live 0x04 (word16 65535) ∧
    Asks live 0x02 [0] ∧ Asks live 0x03 [0] ∧ Asks unleased 0x04 [] ∧ Asks live 0x04 [1] :=
  ⟨⟨asks _ _ _ ready_live, by decide⟩, ⟨asks _ _ _ ready_unleased, by decide⟩,
    ⟨asks _ _ _ ready_remoteLease, by decide⟩, asks _ _ _ ready_live, asks _ _ _ ready_unleased,
    asks _ _ _ ready_live, asks _ _ _ ready_live, asks _ _ _ ready_live, asks _ _ _ ready_live, asks _ _ _ ready_live,
    asks _ _ _ ready_live, asks _ _ _ ready_live, asks _ _ _ ready_unleased, asks _ _ _ ready_live⟩

/-- The three hypotheses of a LeaseChecks: a source without the lease, another length, arguments out of range. -/
theorem refusals (code : Byte) (short out : List Byte) :
    (Asks unleased code short ∧ (asked unleased code short).lease.holder ≠ some .localSource) ∧
    (Asks live code short ∧ (asked live code short).lease.holder = some .localSource) ∧ Asks live code out :=
  ⟨⟨asks _ _ _ ready_unleased, (fun h => nomatch h)⟩, ⟨asks _ _ _ ready_live, rfl⟩, asks _ _ _ ready_live⟩

theorem witness_LeaseChecks_leaseTime :
    Asks unleased 0x04 [1] ∧ Asks live 0x04 [1] ∧ [(1 : Byte)].length ≠ 2 ∧ Asks live 0x04 (word16 99) ∧ 99 < 100 :=
  have h := refusals 0x04 [1] (word16 99)
  ⟨h.1.1, h.2.1.1, by decide, h.2.2, by decide⟩

theorem witness_LeaseChecks_portSet :
    Asks unleased 0x10 [0] ∧ Asks live 0x10 [0] ∧ Asks live 0x10 [4, 1, 1] ∧ 3 < (4 : Byte).toNat ∧
    Asks live 0x10 [0, 2, 1] ∧ Asks live 0x10 [0, 1, 3] :=
  have h := refusals 0x10 [0] [4, 1, 1]
  ⟨h.1.1, h.2.1.1, h.2.2, by decide, asks _ _ _ ready_live, asks _ _ _ ready_live⟩

theorem witness_LeaseChecks_route (code : Byte) :
    Asks unleased code [] ∧ Asks live code [] ∧ Asks live code [64] ∧ routeOutOfRange [64] :=
  have h := refusals code [] [64]
  ⟨h.1.1, h.2.1.1, h.2.2, 64, rfl, by decide⟩

theorem witness_LeaseChecks_resetPart : Asks unleased 0x05 [1] ∧ Asks live 0x05 [1] :=
  have h := refusals 0x05 [1] []
  ⟨h.1.1, h.2.1.1⟩

theorem witness_ResetPartBecomesPending :
    let s := { live with link := { live.link with epoch := 65535 } }
    Asks s 0x05 [] ∧ (asked s 0x05 []).lease.holder = some .localSource ∧ (asked s 0x05 []).link.epoch = 65535 :=
  ⟨asks _ _ _ ready_live, by decide, by decide⟩

theorem witness_PortSetEnablesAndDisables :
    (let s := withPort fun x => { x with state := .off, aligned := false }
     Asks s 0x10 [byte 0, flagByte true, byte Lanes.one.count] ∧ (s.port 0).state = .off) ∧
    (Asks live 0x10 [byte 0, flagByte true, byte Lanes.two.count] ∧ (live.port 0).state ≠ .off ∧
      Lanes.two ≠ (live.port 0).lanes) ∧
    (Asks live 0x10 [byte 0, flagByte true, byte Lanes.four.count] ∧ Lanes.four = (live.port 0).lanes) ∧
    (Asks live 0x10 [byte 0, flagByte false, byte Lanes.four.count] ∧
      (asked live 0x10 [byte 0, flagByte false, byte Lanes.four.count]).lease.holder = some .localSource) :=
  ⟨⟨asks _ _ _ (ready_port _), by decide⟩, ⟨asks _ _ _ ready_live, by decide, by decide⟩,
    ⟨asks _ _ _ ready_live, by decide⟩, asks _ _ _ ready_live, by decide⟩

/-- An edit that names every field, each at a bound of its range. -/
def edit : RouteEdit :=
  { trunkChannel := some 63, mode := some 0, filter := some [0x08, 0x10, 0x11, 0x3F], overrideCode := some 0x10,
    policy := some 1, cap := some 16, floor := some 16, idleLimit := some 1000 }

def edited : RouteConfig :=
  { trunkChannel := 63, mode := .plain, filter := [0x08, 0x10, 0x11, 0x3F], overrideCode := some 0x10,
    policy := .abort, cap := 16, floor := 16, idleLimit := 1000 }

theorem edit_spellable : edit.Spellable := ⟨by decide, by decide, by decide, by decide⟩

/-- An edit of one field. -/
def editOf (trunkChannel : Option Byte) (mode : Option Byte) (cap : Option Nat) : RouteEdit :=
  { trunkChannel, mode, filter := none, overrideCode := none, policy := none, cap, floor := none,
    idleLimit := none }

/-- The arguments of a ROUTE_WRITE to route 3. -/
def written (e : RouteEdit) : List Byte := byte 3 :: e.selection :: e.values

theorem witness_RouteWriteWrites :
    let s := withRoute fun x => { x with gate := .shut, heldSegments := 16 }
    Asks s 0x21 (written edit) ∧ edit.Spellable ∧ edit.selection ≠ 0 ∧ s.lease.holder = some .localSource ∧
    (s.route 3).config.edited edit = some edited ∧ (s.route 3).gate = .shut ∧
    (s.route 3).heldSegments ≤ edited.cap ∧ edited.KeepsSealedRule 3 ∧
    (edited.trunkChannel ≠ (s.route 3).config.trunkChannel ∧
      ∀ k, k ≠ 3 → (s.route k).gate ≠ .disabled → (s.route k).config.trunkChannel ≠ edited.trunkChannel) :=
  ⟨asks _ _ _ (ready_route _), edit_spellable, by decide, by decide +kernel, by decide +kernel, by decide +kernel,
    by decide +kernel, (fun h => nomatch h), by decide +kernel, by decide +kernel⟩

theorem witness_RouteWriteIsRefusedInOrder :
    (let e := editOf (some 64) none none
     Asks live 0x21 (written e) ∧ e.selection ≠ 0 ∧ (live.route 3).config.edited e = none) ∧
    (Asks live 0x21 (written edit) ∧ edit.Spellable ∧ (live.route 3).config.edited edit = some edited ∧
      (live.route 3).gate = .opened) ∧
    (let s := withRoute fun x => { x with gate := .shut, heldSegments := 17 }
     Asks s 0x21 (written edit) ∧ (s.route 3).gate = .shut ∧ edited.cap < (s.route 3).heldSegments) ∧
    (let s := withRoute fun x => { x with gate := .shut }
     let e := editOf (some 4) (some 1) none
     Asks s 0x21 (written e) ∧ ∃ config, (s.route 3).config.edited e = some config ∧ ¬ config.KeepsSealedRule 3) ∧
    (let s := (withRoute fun x => { x with gate := .shut }).setRoute 2 { Route.reset 2 with gate := .opened }
     let e := editOf (some 2) none none
     Asks s 0x21 (written e) ∧ (s.route 3).gate = .shut ∧ (s.route 2).gate ≠ .disabled ∧
       ((s.route 3).config.edited e).map (·.trunkChannel) = some (s.route 2).config.trunkChannel ∧
       ∀ j, j < 2 → (s.route j).gate = .disabled) := by
  refine ⟨⟨asks _ _ _ ready_live, by decide, by decide +kernel⟩,
    ⟨asks _ _ _ ready_live, edit_spellable, by decide +kernel, by decide +kernel⟩,
    ⟨asks _ _ _ (ready_route _), by decide +kernel, by decide +kernel⟩,
    ⟨asks _ _ _ (ready_route _), { RouteConfig.reset 3 with trunkChannel := 4, mode := .sealed }, by decide +kernel,
      ?_⟩,
    asks _ _ _ (ready_route fun x => { x with gate := .shut }), by decide +kernel, by decide +kernel,
    by decide +kernel, by decide +kernel⟩
  intro h
  exact absurd (h rfl).2.2 (by decide)

theorem witness_RouteWriteIsRefusedInOrder_checks :
    (Asks unleased 0x21 [3] ∧ unleased.lease.holder ≠ some .localSource) ∧ Asks live 0x21 [3] ∧ Asks live 0x21 [3, 0] ∧
    (Asks live 0x21 [3, 1] ∧
      ∀ e : RouteEdit, e.Spellable → e.selection = 1 → e.values ≠ []) ∧
    (Asks live 0x21 (64 :: edit.selection :: edit.values) ∧ 63 < (64 : Byte).toNat) := by
  refine ⟨⟨asks _ _ _ ready_unleased, by decide⟩, asks _ _ _ ready_live, asks _ _ _ ready_live,
    ⟨asks _ _ _ ready_live, ?_⟩, asks _ _ _ ready_live, by decide⟩
  intro e _ h1 h2
  obtain ⟨a, b, c, d, f, g, h, i⟩ := e
  rcases a with _ | a
  · have h3 : ∀ b c d f g h i : Bool, byte (flagBit false 0 + flagBit b 1 + flagBit c 2 + flagBit d 3 + flagBit f 4
        + flagBit g 5 + flagBit h 6 + flagBit i 7) ≠ 1 := by decide
    exact h3 _ _ _ _ _ _ _ h1
  · cases h2

theorem witness_RouteEditReadsBack :
    edit.Spellable ∧ readEdit edit.selection edit.values = some edit := ⟨edit_spellable, by decide +kernel⟩

theorem witness_RouteEditKeepsOtherFields : (RouteConfig.reset 3).edited edit = some edited := by decide +kernel

/-- Route 3 DISABLED, and route `k` in service with trunk channel 3. -/
def clashing (k : Fin 64) : State :=
  (withRoute fun x => { x with gate := .disabled }).setRoute k
    { Route.reset k with gate := .opened, config := { RouteConfig.reset k with trunkChannel := 3 } }

theorem witness_RouteEnableOpensTheGate :
    (let s := withRoute fun x => { x with gate := .disabled }
     Asks s 0x22 [byte 3] ∧ s.lease.holder = some .localSource ∧ (s.route 3).gate = .disabled ∧
       ∀ k, k ≠ 3 → (s.route k).gate = .disabled) ∧
    (Asks (clashing 63) 0x22 [byte 3] ∧ ((clashing 63).route 3).gate = .disabled ∧
      ((clashing 63).route 63).gate ≠ .disabled ∧
      ((clashing 63).route 63).config.trunkChannel = ((clashing 63).route 3).config.trunkChannel ∧
      ∀ j, j < 63 → j ≠ 3 → ((clashing 63).route j).gate = .disabled) ∧
    (Asks live 0x22 [byte 3] ∧ (live.route 3).gate ≠ .disabled) :=
  ⟨⟨asks _ _ _ (ready_route _), by decide +kernel, by decide +kernel, by decide +kernel⟩,
    ⟨asks _ _ _ ready_live, by decide +kernel, by decide +kernel, by decide +kernel, by decide +kernel⟩,
    asks _ _ _ ready_live, by decide +kernel⟩

theorem witness_RouteDisableTakesOutOfService :
    (let s := withRoute fun x => { x with gate := .disabled }
     Asks s 0x23 [byte 3] ∧ (s.route 3).gate = .disabled) ∧
    (let s := receiving (lined .forward none) 0x10 [1, 2]
     Asks s 0x23 [byte 3] ∧ s.lease.holder = some .localSource ∧ (s.route 3).gate ≠ .disabled) :=
  ⟨⟨asks _ _ _ (ready_route _), by decide +kernel⟩, asks _ _ _ ready_live, by decide +kernel, by decide +kernel⟩

theorem witness_HoldReleaseAndStepMoveTheGate :
    (let s := withRoute fun x => { x with gate := .stepping, assembly := .assembling frame none }
     Asks s 0x28 [byte 3] ∧ s.lease.holder = some .localSource ∧ (s.route 3).gate = .stepping ∧
       (s.route 3).isAssembling = true) ∧
    (Asks live 0x28 [byte 3] ∧ (live.route 3).gate = .opened ∧ (live.route 3).isAssembling = false) ∧
    (let s := withRoute fun x => { x with gate := .shut }
     (Asks s 0x28 [byte 3] ∧ Asks s 0x2A [byte 3]) ∧ (s.route 3).gate = .shut) ∧
    (Asks live 0x29 [byte 3] ∧ (live.route 3).gate ≠ .disabled) ∧
    (Asks live 0x28 [byte 63] ∧ Asks live 0x29 [byte 63] ∧ (live.route 63).gate = .disabled) ∧
    (Asks live 0x2A [byte 3] ∧ (live.route 3).gate ≠ .shut) :=
  ⟨⟨asks _ _ _ (ready_route _), by decide +kernel, by decide +kernel, by decide +kernel⟩,
    ⟨asks _ _ _ ready_live, by decide +kernel, by decide +kernel⟩,
    ⟨⟨asks _ _ _ (ready_route _), asks _ _ _ (ready_route _)⟩, by decide +kernel⟩,
    ⟨asks _ _ _ ready_live, by decide +kernel⟩,
    ⟨asks _ _ _ ready_live, asks _ _ _ ready_live, by decide +kernel⟩, asks _ _ _ ready_live, by decide +kernel⟩

theorem witness_HoldPointIsSetAndCleared :
    live.lease.holder = some .localSource ∧
    (Asks live 0x2B ([byte 3, HoldKind.tag.code, (HoldCondition.frameNumber 65535).name.code] ++ word16 65535) ∧
      65535 < 65536) ∧
    (Asks live 0x2B [byte 3, HoldKind.force.code, (HoldCondition.content 0x3F).name.code, byte 0x3F] ∧
      0x08 ≤ 0x3F ∧ 0x3F ≤ 0x3F) ∧
    Asks live 0x2B [byte 3, HoldKind.force.code, HoldCondition.damage.name.code] ∧ Asks live 0x2C [byte 3] :=
  ⟨by decide, ⟨asks _ _ _ ready_live, by decide⟩, ⟨asks _ _ _ ready_live, by decide, by decide⟩,
    asks _ _ _ ready_live, asks _ _ _ ready_live⟩

theorem witness_HoldPointIsSetAndCleared_refusals :
    (Asks unleased 0x2B [] ∧ unleased.lease.holder ≠ some .localSource) ∧ Asks live 0x2B [3, 0] ∧
    Asks live 0x2B [3, 0, 2, 0] ∧ (Asks live 0x2B [3, 0, 3] ∧ 2 < (3 : Byte).toNat) ∧
    (Asks live 0x2B [64, 0, 2] ∧ 63 < (64 : Byte).toNat) ∧ (Asks live 0x2B [3, 2, 0, 5, 0] ∧ 1 < (2 : Byte).toNat) ∧
    (Asks live 0x2B [3, 0, 1, 7] ∧ (7 : Byte).toNat < 0x08) ∧
    (Asks live 0x2B [3, 0, 1, 0x40] ∧ 0x3F < (0x40 : Byte).toNat) :=
  ⟨⟨asks _ _ _ ready_unleased, by decide⟩, asks _ _ _ ready_live, asks _ _ _ ready_live,
    ⟨asks _ _ _ ready_live, by decide⟩, ⟨asks _ _ _ ready_live, by decide⟩, ⟨asks _ _ _ ready_live, by decide⟩,
    ⟨asks _ _ _ ready_live, by decide⟩, asks _ _ _ ready_live, by decide⟩

theorem witness_MarksAndCountersAreSet_refusals :
    Asks live 0x30 [2] ∧ Asks live 0x60 [] ∧ (Asks live 0x60 [4] ∧ 3 < (4 : Byte).toNat) ∧ Asks live 0x60 [2] ∧
    Asks live 0x60 [3, 1] ∧ Asks live 0x60 [2, 2] ∧ Asks live 0x60 [0, 64, 0] ∧ Asks live 0x60 [1, 4, 0] ∧
    Asks live 0x60 [3, 0, 1] ∧ Asks live 0x60 [0, 63, 2] :=
  ⟨asks _ _ _ ready_live, asks _ _ _ ready_live, ⟨asks _ _ _ ready_live, by decide⟩, asks _ _ _ ready_live,
    asks _ _ _ ready_live, asks _ _ _ ready_live, asks _ _ _ ready_live, asks _ _ _ ready_live, asks _ _ _ ready_live,
    asks _ _ _ ready_live⟩

theorem witness_MarksAndCountersAreSet :
    (Asks live 0x30 [1] ∧ live.lease.holder = some .localSource) ∧
    (Asks live 0x60 [3, 1, 1] ∧ (CounterScope.source .localSource).bytes ++ [1] = [3, 1, 1]) ∧ Asks live 0x60 [2, 1] ∧
    (Asks unleased 0x30 [1] ∧ unleased.lease.holder ≠ some .localSource) ∧ Asks unleased 0x60 [2, 1] ∧
    Asks unleased 0x60 [1, 3, 1] ∧ (CounterScope.port 3).bytes ++ [1] = [1, 3, 1] :=
  ⟨⟨asks _ _ _ ready_live, by decide⟩, ⟨asks _ _ _ ready_live, by decide⟩, asks _ _ _ ready_live,
    ⟨asks _ _ _ ready_unleased, by decide⟩, asks _ _ _ ready_unleased, asks _ _ _ ready_unleased, by decide⟩

/-- `live` with another link state. -/
def withLink (state : LinkState) : State := { live with link := { live.link with state } }

theorem ready_link (state : LinkState) : Ready (withLink state) := ready_live

theorem witness_TrunkCommandsMoveTheLink :
    live.lease.holder = some .localSource ∧ Asks live 0x41 [] ∧
    (Asks (withLink .halted) 0x42 [] ∧ (withLink .halted).link.state = .halted) ∧
    (Asks live 0x42 [] ∧ live.link.state ≠ .halted) ∧
    (Asks (withLink .down) 0x43 [] ∧ (withLink .down).link.state = .down ∧ Asks live 0x43 [] ∧
      live.link.state = .locked) ∧
    (Asks (withLink .training) 0x43 [] ∧ (withLink .training).link.state = .training) ∧
    (Asks unleased 0x41 [0] ∧ unleased.lease.holder ≠ some .localSource) ∧ Asks live 0x43 [0] :=
  ⟨by decide, asks _ _ _ ready_live, ⟨asks _ _ _ (ready_link _), by decide⟩, ⟨asks _ _ _ ready_live, by decide⟩,
    ⟨asks _ _ _ (ready_link _), by decide, asks _ _ _ ready_live, by decide⟩, ⟨asks _ _ _ (ready_link _), by decide⟩,
    ⟨asks _ _ _ ready_unleased, by decide⟩, asks _ _ _ ready_live⟩

/-- `live` with these notices held. -/
def withNotices (held : List Notice) (nextSequence lost : Nat) : State :=
  { live with notices := { live.notices with held, nextSequence, lost } }

theorem witness_NoticeAckTakesNoticesAway :
    (let s := withNotices (List.replicate 15 { one with sequence := 3 } ++ [{ one with sequence := 65535 }]) 1 9
     Asks s 0x50 (word16 65535) ∧
       (∃ older n newer, s.notices.held = older ++ n :: newer ∧ n.sequence = 65535 ∧
         (∀ m ∈ older, m.sequence ≠ 65535) ∧ newer = []) ∧ 0 < s.notices.lost ∧ s.notices.nextSequence = 1) ∧
    (let s := withNotices [one] 3 0
     Asks s 0x50 (word16 2) ∧ (∃ n, s.notices.held = [] ++ n :: [] ∧ n.sequence = 2) ∧ ¬ 0 < s.notices.lost) ∧
    (Asks live 0x50 (word16 0) ∧ ∀ n ∈ live.notices.held, n.sequence ≠ 0) ∧ Asks live 0x50 [1] := by
  refine ⟨⟨asks _ _ _ ready_live,
      ⟨List.replicate 15 { one with sequence := 3 }, { one with sequence := 65535 }, [], rfl, rfl, by decide, rfl⟩,
      by decide, by decide⟩,
    ⟨asks _ _ _ ready_live, ⟨one, rfl, rfl⟩, by decide⟩,
    ⟨asks _ _ _ ready_live, fun _ h => nomatch h⟩, asks _ _ _ ready_live⟩

theorem witness_NoticeQueueIsCommanded :
    Asks live 0x51 [] ∧ Asks live 0x52 KindMask.reset.bytes ∧ live.lease.holder = some .localSource ∧
    Asks live 0x53 [Source.remoteSource.code] ∧ (Asks live 0x53 [0] ∧ (0 : Byte) ≠ 1 ∧ (0 : Byte) ≠ 2) ∧
    Asks live 0x53 [3] ∧ Asks live 0x51 [0] ∧ Asks unleased 0x52 [] ∧ Asks live 0x52 [] ∧
    (Asks live 0x52 [0, 0, 0, 0, 1, 0, 0, 0, 0, 2] ∧ (2 : Byte) ≠ 0 ∧ (2 : Byte) ≠ 1) ∧ Asks unleased 0x53 [1] ∧
    Asks live 0x53 [] :=
  ⟨asks _ _ _ ready_live, asks _ _ _ ready_live, by decide, asks _ _ _ ready_live,
    ⟨asks _ _ _ ready_live, by decide, by decide⟩, asks _ _ _ ready_live, asks _ _ _ ready_live,
    asks _ _ _ ready_unleased, asks _ _ _ ready_live, ⟨asks _ _ _ ready_live, by decide, by decide⟩,
    asks _ _ _ ready_unleased, asks _ _ _ ready_live⟩

/-! ### The trunk, the timers and part reset -/

theorem witness_CreditGrantRaisesTheBalance :
    live.resetLine = .high ∧ live.link.state = .locked ∧
    (∃ lo hi, checkBytes (recordCheck [0x30, 255]) = [lo, hi] ∧ (255 : Byte) ≠ 0) ∧
    (∀ count lo hi, ([] : List Byte) = [count, lo, hi] →
      checkBytes (recordCheck [0x30, count]) ≠ [lo, hi] ∨ count = 0) :=
  ⟨by decide, by decide, ⟨_, _, rfl, by decide⟩, fun _ _ _ h => nomatch h⟩

theorem witness_AcknowledgementLocksTheLink :
    State.reset.resetLine = .high ∧ State.reset.link.state = .training ∧
    (let s := { State.reset with link := { State.reset.link with reverseAligned := true, epoch := 65535 } }
     s.link.reverseAligned = true ∧ (∃ lo hi, checkBytes (recordCheck [0x32, 0xFF, 0xFF]) = [lo, hi]) ∧
       read16 0xFF 0xFF = s.link.epoch) ∧
    (∀ e0 e1 lo hi, ([1, 0] : List Byte) = [e0, e1, lo, hi] →
      checkBytes (recordCheck [0x32, e0, e1]) ≠ [lo, hi] ∨ read16 e0 e1 ≠ State.reset.link.epoch) :=
  ⟨by decide, by decide, ⟨by decide, ⟨_, _, rfl⟩, by decide⟩, fun _ _ _ _ h => nomatch h⟩

theorem witness_OtherReverseRecordsAreDiscarded :
    (live.resetLine = .high ∧ (Instr.unknownReverseRecord []).wellFormed = true ∧ live.link.state = .locked) ∧
    State.reset.link.state = .training ∧ (withLink .halted).link.state = .halted ∧
    (withLink .down).link.state = .down := by decide

theorem witness_LinkFallsAndRetries :
    State.reset.link.trainTimer.isRunning = true ∧
    (let s := { live with link := { live.link with
       state := .down, reverseAligned := false, retryTimer := .running 100 } }
     s.resetLine = .high ∧ s.link.retryTimer.isRunning = true ∧ s.link.state = .down) ∧
    live.link.state = .locked := by decide

theorem witness_TransmissionCompletionFreesTheSender :
    (let s := { live with queue := [record8], sender := { live.sender with inFlight := .stream } }
     s.resetLine = .high ∧ s.sender.inFlight = .stream ∧ s.queue = [record8]) ∧
    (let s := { live with
       sender := { live.sender with inFlight := .reply }
       resetPending := some { source := .localSource, grace := .running 10 } }
     s.sender.inFlight = .reply ∧ ∀ pending, s.resetPending = some pending → pending.source ≠ .remoteSource) ∧
    { live.sender with inFlight := .notice 2 }.inFlight = .notice 2 := by
  refine ⟨by decide, ⟨by decide, ?_⟩, rfl⟩
  intro pending h
  cases h
  decide

theorem witness_ExpiriesActOnce :
    (let s := withRoute fun x => { x with assembly := .skipping, idleTimer := .running 1 }
     s.resetLine = .high ∧ (s.route 3).idleTimer.isRunning = true) ∧
    { live.sender with stallTimer := .running 1000 }.stallTimer.isRunning = true ∧
    (live.lease.timer.isRunning = true ∧ live.lease.holder = some .localSource) := by decide +kernel

theorem witness_PartResetsAreTaken :
    { live with resetLine := .low }.resetLine = .low ∧
    { live with resetLine := .lowSincePowerOn }.resetLine = .lowSincePowerOn ∧
    (let s := { live with
       transmitter := { sending := .reply, wire := [] }
       sender := { live.sender with inFlight := .reply }
       resetPending := some { source := .localSource, grace := .running 10 }
       link := { live.link with epoch := 65535 } }
     s.resetLine = .high ∧ s.resetPending = some { source := .localSource, grace := .running 10 } ∧
       (Timer.running 10).isRunning = true ∧ s.transmitter.sending = .reply) ∧
    (let s := { live with
       sender := { live.sender with inFlight := .reply }
       resetPending := some { source := .remoteSource, grace := .running 10 } }
     s.resetPending = some { source := .remoteSource, grace := .running 10 } ∧ s.sender.inFlight = .reply) := by
  decide

theorem witness_ResetPinHoldsThePart :
    live.resetLine = .high ∧ { live with resetLine := .low }.resetLine ≠ .high ∧
    (∀ straps low, Instr.gapAbort ≠ .powerOn straps low) ∧ ∀ straps, Instr.gapAbort ≠ .resetNReleased straps :=
  ⟨by decide, by decide, fun _ _ h => (nomatch h), fun _ h => (nomatch h)⟩

/-! ### The laws that every step keeps -/

/-- Route 3 ASSEMBLING `frame` behind its opening mark: one side record of 5 segments queued and in transmission, its
completion waiting. -/
def running : State :=
  { withRoute fun x =>
      { x with assembly := .assembling frame none, heldSegments := 5, idleTimer := .running 100 } with
    queue := [record8]
    pool := { freeSegments := 2043, freeDescriptors := 1022, segmentLowMark := 2043, descriptorLowMark := 1022 }
    sender := { live.sender with credits := 15, inFlight := .stream, wire := record8.bytes }
    pending := [.transmissionCompletion strapsAtReset] }

theorem running_steps :
    step running = .next (after (.transmissionCompletion strapsAtReset) { running with pending := [] }) := rfl

theorem witness_PoolIsConserved : running.SegmentsConserved ∧ running.DescriptorsConserved := by
  refine ⟨⟨by decide +kernel, by decide +kernel⟩, ?_⟩
  unfold State.DescriptorsConserved
  decide +kernel

theorem witness_RouteTableLawsAreKept : running.Configured ∧ running.ClashFree := by
  unfold State.Configured Route.Configured RouteConfig.InRange RouteConfig.KeepsSealedRule State.ClashFree
  decide +kernel

theorem running_gates : running.GateLaw := by
  refine ⟨?_, fun p x _ h => ?_⟩
  · unfold Route.GateLaw
    decide +kernel
  · have none : ∀ p, (running.port p).reception = none := by decide +kernel
    rw [none p] at h
    cases h

theorem witness_RouteRuntimeLawsAreKept :
    running.GateLaw ∧ (∀ r, (running.route r).TimerLaw) ∧ ∀ r, (running.route r).FrameCounts := by
  refine ⟨running_gates, by unfold Route.TimerLaw; decide +kernel, fun r f line h => ?_⟩
  have only : ∀ r, r ≠ 3 → (running.route r).assembly = .idle := by decide +kernel
  by_cases hr : r = 3
  · subst hr
    have : (running.route 3).assembly = .assembling frame none := by decide +kernel
    rw [this] at h
    cases h
    decide
  · rw [only r hr] at h
    cases h

theorem witness_FramesStayWhole : running.FrameIntegrity := by
  have trunk : ∀ r, (running.route r).config.trunkChannel = r.val := by decide +kernel
  have three : (running.route 3).isAssembling = true := by decide +kernel
  have frameOf3 : (running.route 3).trunkFrame = some { number := 5, forwarded := 0, hasSeal := false } := by
    decide +kernel
  have only : ∀ r, (running.route r).isAssembling = true → r = 3 := by decide +kernel
  refine ⟨running_gates, witness_RouteTableLawsAreKept.2, fun channel => ?_⟩
  by_cases hc : channel = 3
  · subst hc
    refine ⟨some { number := 5, forwarded := 0, hasSeal := false },
      some { number := 5, forwarded := 0, hasSeal := false }, rfl, fun r _ ha => ?_, fun none => ?_⟩
    · rw [only r ha, frameOf3]
    · have := none 3 (trunk 3)
      rw [three] at this
      cases this
  · refine ⟨none, none, ?_, fun r hr ha => ?_, fun _ => rfl⟩
    · have : running.channelRecords channel = [] := by
        have queue : running.queue = [record8] := rfl
        simp [State.channelRecords, queue, record8, Ne.symm hc]
      rw [this]
      rfl
    · rw [only r ha] at hr
      exact absurd (hr.symm.trans (trunk 3)) hc

theorem witness_BlockLawsAreKept :
    (∀ p, (running.port p).Law) ∧ running.receiver.Law ∧ running.lease.Law ∧
    (withNotices [{ one with sequence := 65535 }] 1 9).notices.Law := by
  refine ⟨fun p => ⟨?_, ?_, fun y h => ?_⟩, ⟨by decide, fun h => nomatch h⟩,
    ⟨by decide, by decide, by decide, by decide⟩, ?_⟩
  · revert p; decide +kernel
  · revert p; decide +kernel
  · have none : ∀ p, (running.port p).reception = none := by decide +kernel
    rw [none p] at h
    cases h
  · exact ⟨by decide, by decide, by decide, by decide, by decide, by decide, by decide⟩

theorem witness_TransmitLawsAreKept : running.LinkLaw ∧ running.StallLaw ∧ running.NothingWaits := by
  refine ⟨⟨⟨by decide, by decide, by decide, by decide, by decide, by decide⟩,
      ⟨by decide, by decide, by decide, by decide, by decide⟩⟩,
    ⟨fun h => absurd h.2.2 (by decide), fun _ => by decide⟩, fun _ => ⟨fun _ => ⟨by decide, fun _ m h => nomatch h⟩,
      fun _ h => nomatch h⟩⟩

theorem witness_OnlyTheseEventsChangeThem :
    (∃ t, exec (.transmissionCompletion strapsAtReset) running = .next t ∧ running.queue = record8 :: t.queue) ∧
    (∃ t, exec .gapAbort running = .next t) ∧ mayReset .gapAbort = false ∧ Instr.gapAbort ≠ .routeWrite :=
  ⟨⟨_, rfl, rfl⟩, ⟨_, rfl⟩, rfl, fun h => nomatch h⟩

end Sys2Proof.Tests
end

section
/-! SUPPORT. What the events of the ingress ports do, state by state: which port and which route an operation changes
at most, and one equation or specification for each operation between a header and the end of its packet. -/

namespace Sys2Proof.Machine

-- One theorem after another, as in the model's tests: elaboration in parallel costs a stack for each thread that waits.
set_option Elab.async false

/-! ## One port, one route -/

theorem OnlyPort.trans {s t u : State} {p : Fin 4} (h : OnlyPort s t p) (k : OnlyPort t u p) : OnlyPort s u p :=
  fun q hq => (k q hq).trans (h q hq)

theorem OnlyRoute.trans {s t u : State} {r : Fin 64} (h : OnlyRoute s t r) (k : OnlyRoute t u r) : OnlyRoute s u r :=
  fun q hq => (k q hq).trans (h q hq)

/-- An operation that leaves the ports leaves every port but one. -/
theorem SameBut.onlyPort {s t : State} {changed : List Piece} (h : SameBut s t changed) (p : Fin 4)
    (n : Piece.ports ∉ changed := by decide) : OnlyPort s t p := fun q _ => h.port q n

/-- An operation that leaves the table leaves every route but one. -/
theorem SameBut.onlyRoute {s t : State} {changed : List Piece} (h : SameBut s t changed) (r : Fin 64)
    (n : Piece.routes ∉ changed := by decide) : OnlyRoute s t r := fun q _ => h.route q n

theorem modifyPort_onlyPort (s : State) (p : Fin 4) (f : Port → Port) : OnlyPort s (s.modifyPort p f) p :=
  fun _ hq => s.port_modifyPort_ne f hq

theorem countPort_onlyPort (s : State) (p : Fin 4) (f : PortCounters → PortCounters) :
    OnlyPort s (s.countPort p f) p := modifyPort_onlyPort s p _

theorem modifyRoute_onlyRoute (s : State) (r : Fin 64) (f : Route → Route) : OnlyRoute s (s.modifyRoute r f) r :=
  fun _ hq => s.route_modifyRoute_ne f hq

theorem setAssembly_onlyRoute (s : State) (r : Fin 64) (a : Assembly) : OnlyRoute s (s.setAssembly r a) r :=
  modifyRoute_onlyRoute s r _

theorem countRoute_onlyRoute (s : State) (r : Fin 64) (f : RouteCounters → RouteCounters) :
    OnlyRoute s (s.countRoute r f) r := modifyRoute_onlyRoute s r _

theorem stopIdleTimer_onlyRoute (s : State) (r : Fin 64) : OnlyRoute s (s.stopIdleTimer r) r :=
  modifyRoute_onlyRoute s r _

/-- Writing back what an entry holds changes nothing. -/
theorem State.setRoute_route (s : State) (r : Fin 64) : s.setRoute r (s.route r) = s := by
  simp [State.setRoute, State.route]

/-- Writing back what a port holds changes nothing. -/
theorem State.setPort_port (s : State) (p : Fin 4) : s.setPort p (s.port p) = s := by
  simp [State.setPort, State.port]

/-- A change that leaves the entry as it is changes nothing. -/
theorem State.modifyRoute_of_eq {s : State} {r : Fin 64} {f : Route → Route} (h : f (s.route r) = s.route r) :
    s.modifyRoute r f = s := by
  rw [s.modifyRoute_eq, h, s.setRoute_route]

/-- A change that leaves the port as it is changes nothing. -/
theorem State.modifyPort_of_eq {s : State} {p : Fin 4} {f : Port → Port} (h : f (s.port p) = s.port p) :
    s.modifyPort p f = s := by
  rw [s.modifyPort_eq, h, s.setPort_port]

/-! ## Cutting a packet and visiting the routes -/

/-- Cutting removes the packet in reception, and counts it when there is one (R5, R8). -/
theorem State.port_cutReception (s : State) (p : Fin 4) :
    (s.cutReception p).port p =
      { s.port p with
        reception := none
        counters :=
          { (s.port p).counters with
            cutPackets := if (s.port p).reception = none then (s.port p).counters.cutPackets
              else bump (s.port p).counters.cutPackets } } := by
  unfold State.cutReception
  split
  · next h =>
    rw [if_neg (Option.isSome_iff_ne_none.1 h)]
    simp
  · next h =>
    have free : (s.port p).reception = none := by simpa using h
    rw [if_pos free]
    conv_rhs => rw [← free]

theorem cutReception_onlyPort (s : State) (p : Fin 4) : OnlyPort s (s.cutReception p) p := by
  unfold State.cutReception
  split
  · exact (modifyPort_onlyPort s p _).trans (countPort_onlyPort _ p _)
  · exact fun _ _ => rfl

section Visited
variable {s t u : State} {p : Fin 4} {reason : AbortReason} {last : List NoticeInfo}

/-- What the visit finds at the routes, the queue, the pool and the notices is all that it depends on. -/
theorem PortVisited.congr_left (h : PortVisited t u p reason last) (routes : t.routes = s.routes)
    (queue : t.queue = s.queue) (pool : t.pool = s.pool) (notices : t.notices = s.notices) :
    PortVisited s u p reason last := by
  simpa only [PortVisited, State.route_congr routes, queue, pool, notices] using h

/-- What the visit leaves at them is all that it says. -/
theorem PortVisited.congr_right (h : PortVisited s t p reason last) (routes : u.routes = t.routes)
    (queue : u.queue = t.queue) (pool : u.pool = t.pool) (notices : u.notices = t.notices) :
    PortVisited s u p reason last := by
  simpa only [PortVisited, State.route_congr routes, queue, pool, notices] using h

/-- A notice raised after the visit stands last. -/
theorem PortVisited.raise (h : PortVisited s u p reason last) (info : NoticeInfo) :
    PortVisited s (u.raise info) p reason (last ++ [info]) := by
  obtain ⟨mine, others, queue, pool, notices⟩ := h
  refine ⟨mine, others, queue, pool, ?_⟩
  rw [u.raise_notices, notices, ← List.append_assoc, raiseAll_append _ _ [info]]
  rfl

end Visited

/-! ## A header at a port -/

theorem State.port_activatePort (s : State) (p : Fin 4) :
    (s.activatePort p).port p = { s.port p with state := .active } := by
  unfold State.activatePort
  split
  · next h => rw [← h]
  · simp

theorem activatePort_onlyPort (s : State) (p : Fin 4) : OnlyPort s (s.activatePort p) p := by
  unfold State.activatePort
  split
  · exact fun _ _ => rfl
  · exact (modifyPort_onlyPort s p _).trans ((raise_frame _ _).onlyPort p)

theorem State.activatePort_notices (s : State) (p : Fin 4) :
    (s.activatePort p).notices = s.notices.raiseAll ((s.port p).upNotices p) := by
  unfold State.activatePort Port.upNotices
  split
  · next h => simp [h, NoticeQueue.raiseAll]
  · next h => rw [if_neg h]; rfl

/-- The part once a good header made its port ACTIVE and its packet the one in reception, with this disposition, before
the packet's class is counted and before its route takes the header (R4, R7, R10). -/
def State.begun (s : State) (p : Fin 4) (f : PacketHeader) (d : Disposition) : State :=
  ((s.activatePort p).countPort p fun c => { c with packets := bump c.packets }).receive p (some f) d

section Begun
variable (s : State) (p : Fin 4) (f : PacketHeader) (d : Disposition)

theorem begun_frame : SameBut s (s.begun p f d) [.ports, .notices] :=
  ((activatePort_frame s p).trans ((countPort_frame _ p _).mono (by decide))).trans
    ((receive_frame _ p _ _).mono (by decide))

theorem begun_onlyPort : OnlyPort s (s.begun p f d) p :=
  ((activatePort_onlyPort s p).trans (countPort_onlyPort _ p _)).trans (modifyPort_onlyPort _ p _)

theorem State.port_begun :
    (s.begun p f d).port p = (s.port p).headed (newReception (some f) d) fun c => c := by
  simp [State.begun, State.receive, State.port_activatePort, Port.headed]

theorem State.begun_notices : (s.begun p f d).notices = s.notices.raiseAll ((s.port p).upNotices p) := by
  simp [State.begun, State.receive, State.activatePort_notices]

end Begun

section Header
variable {s : State} {p : Fin 4} {header : Header}

/-- A header that passes begins a packet, and its class is counted or its route takes it (R10). -/
theorem headerArrives_eq (passes : headerPasses header = true) :
    s.headerArrives p header =
      let f := headerFields header
      let r := routeOf p f.channel
      if 0x02 ≤ f.code ∧ f.code ≤ 0x07 then
        (s.begun p f .unknownKind).countPort p fun c => { c with unknownKind := bump c.unknownKind }
      else if (s.route r).gate = .disabled then
        (s.begun p f .unrouted).countPort p fun c => { c with unrouted := bump c.unrouted }
      else (s.begun p f .toRoute).routeHeader p r f := by
  simp only [State.headerArrives, passes, if_true, State.classify, State.begun, State.countPort_route,
    (activatePort_frame s p).route]

/-- A header that comes is an event of the part. -/
theorem exec_headerEvent (comes : HeaderComes s p) :
    exec (.headerEvent p header) s = .next (s.headerArrives p header).finish := by
  obtain ⟨high, on, aligned, free⟩ := comes
  exact event_possible _ high (by simp [on, aligned, free])

end Header

/-! ## A header at its route -/

/-- No hold point is armed for an untested condition (R98). -/
theorem Route.Untested.armedFor {x : Route} {condition : HoldCondition} (h : x.Untested condition) :
    x.armedFor condition = none := by
  rw [Route.armedFor, Option.filter_eq_none_iff]
  intro point held
  simpa using h point held

theorem segmentsFor_eq (length : Nat) : segmentsFor length = segmentsNeeded length := by
  unfold segmentsFor segmentsNeeded
  split <;> omega

theorem isLineCode_eq_true {code : Nat} : isLineCode code = true ↔ 0x10 ≤ code := decide_eq_true_iff

section Route
variable {s : State} {p : Fin 4} {r : Fin 64} {header : PacketHeader} {frame : OpenFrame} {line : Option LineInAssembly}

/-- Writing back the assembly state changes nothing. -/
theorem State.setAssembly_of_eq {a : Assembly} (h : (s.route r).assembly = a) : s.setAssembly r a = s :=
  State.modifyRoute_of_eq (by rw [← h])

/-- A header at a route with no armed CONTENT hold point for its code goes on to the count of the lines (R50). -/
theorem assembleHeader_untested (untested : (s.route r).Untested (.content header.code)) :
    s.assembleHeader p r header frame = s.countLine p r header frame := by
  rw [State.assembleHeader, untested.armedFor]

/-- A line within the declared lines counts as received, a side does not, and both go on to the filter (R51). -/
theorem countLine_within (assembly : (s.route r).assembly = .assembling frame line)
    (within : 0x10 ≤ header.code → frame.received < frame.declaredLines) :
    s.countLine p r header frame =
      (s.setAssembly r (.assembling
        { frame with received := if 0x10 ≤ header.code then frame.received + 1 else frame.received }
        line)).filterPacket p r header := by
  unfold State.countLine
  split
  · next h =>
    have isLine := isLineCode_eq_true.1 h
    simp [isLine, within isLine, State.modifyFrame, assembly]
  · next h =>
    have isSide := mt isLineCode_eq_true.2 h
    rw [if_neg isSide, State.setAssembly_of_eq assembly]

/-- The filter passes every code when it is empty, and the codes it lists (R52). -/
theorem filterPacket_passes
    (passes : (s.route r).config.filter = [] ∨ header.code ∈ (s.route r).config.filter) :
    s.filterPacket p r header = s.allocate p r header := by
  rcases passes with empty | listed
  · simp [State.filterPacket, empty]
  · simp [State.filterPacket, listed]

/-- A route without a line in assembly just takes the new one (R53, R79). -/
theorem setLine_none (assembly : (s.route r).assembly = .assembling frame none) (line : LineInAssembly) :
    s.setLine r line = s.setAssembly r (.assembling frame (some line)) := by
  simp [State.setLine, State.freeLine, assembly]

theorem canAllocate_iff {n : Nat} : s.canAllocate r n = true ↔ Allocates s r n := by
  simp [State.canAllocate, Allocates, and_assoc]

/-- A new line in assembly that is longer than the declared line bytes is LONG, and counted (R11). -/
theorem testLong_port (assembly : (s.route r).assembly = .assembling frame line) :
    (s.testLong p r header).port p =
      let isLong := 0x10 ≤ header.code ∧ frame.declaredBytes < header.length
      { s.port p with
        reception := (s.port p).reception.map fun y => { y with long := decide isLong || y.long }
        counters :=
          { (s.port p).counters with
            longLines := if isLong then bump (s.port p).counters.longLines
              else (s.port p).counters.longLines } } := by
  simp only [State.testLong, assembly, Bool.and_eq_true, isLineCode_eq_true, decide_eq_true_eq]
  split
  · next h => simp [h]
  · next h => simp [h]

theorem testLong_onlyPort : OnlyPort s (s.testLong p r header) p := by
  unfold State.testLong
  repeat' split
  · exact (modifyPort_onlyPort s p _).trans (countPort_onlyPort _ p _)
  · exact fun _ _ => rfl
  · exact fun _ _ => rfl

/-- A packet whose resources are there becomes the line in assembly with its segments and one descriptor (R53,
R78). -/
theorem allocate_granted (assembly : (s.route r).assembly = .assembling frame none)
    (resources : Allocates s r (segmentsNeeded header.length)) :
    s.allocate p r header =
      (((s.setAssembly r (.assembling frame
          (some { code := header.code, segments := segmentsNeeded header.length, payload := [] }))).takeSegments r
        (segmentsNeeded header.length)).takeDescriptors 1).testLong p r header := by
  rw [State.allocate, segmentsFor_eq]
  simp only [canAllocate_iff.2 resources, if_true, setLine_none assembly]

/-- Everything that taking up a line or side packet does, once its resources are there (R11, R53, R78). -/
theorem allocate_spec (assembly : (s.route r).assembly = .assembling frame none)
    (resources : Allocates s r (segmentsNeeded header.length)) :
    let u := s.allocate p r header
    let n := segmentsNeeded header.length
    let isLong := 0x10 ≤ header.code ∧ frame.declaredBytes < header.length
    SameBut s u [.ports, .routes, .pool] ∧ OnlyPort s u p ∧ OnlyRoute s u r ∧
    u.port p =
      { s.port p with
        reception := (s.port p).reception.map fun y => { y with long := decide isLong || y.long }
        counters :=
          { (s.port p).counters with
            longLines := if isLong then bump (s.port p).counters.longLines
              else (s.port p).counters.longLines } } ∧
    u.pool = s.pool.granted n 1 ∧
    u.route r =
      { s.route r with
        heldSegments := (s.route r).heldSegments + n
        assembly := .assembling frame (some { code := header.code, segments := n, payload := [] }) } := by
  dsimp only
  rw [allocate_granted assembly resources]
  generalize hv : ((s.setAssembly r _).takeSegments r _).takeDescriptors 1 = v
  have taken : SameBut s v [.routes, .pool] := by
    subst hv
    exact (((setAssembly_frame s r _).mono (by decide)).trans (takeSegments_frame _ r _)).trans
      ((takeDescriptors_frame _ 1).mono (by decide))
  have only : OnlyRoute s v r := by
    subst hv
    exact ((setAssembly_onlyRoute s r _).trans fun k hk => State.route_takeSegments_ne _ _ hk).trans
      ((takeDescriptors_frame _ 1).onlyRoute r)
  have route : v.route r =
      { s.route r with
        heldSegments := (s.route r).heldSegments + segmentsNeeded header.length
        assembly := .assembling frame
          (some { code := header.code, segments := segmentsNeeded header.length, payload := [] }) } := by
    subst hv; simp
  have long := testLong_frame v p r header
  refine ⟨(taken.mono (by decide)).trans (long.mono (by decide)), (taken.onlyPort p).trans testLong_onlyPort,
    only.trans (long.onlyRoute r), ?_, ?_, ?_⟩
  · rw [testLong_port (congrArg Route.assembly route), taken.port]
  · rw [long.pool, ← hv]; rfl
  · rw [long.route, route]

end Route

end Sys2Proof.Machine
end

section
/-! The statements about alignment and headers. -/

namespace Sys2Proof.Machine

-- One theorem after another, as in the model's tests.
set_option Elab.async false

/-! ## Alignment -/

/-- Alignment lost outside ACTIVE ends the packet without counting it (R4, R7). -/
theorem alignmentLost_quiet {s : State} {p : Fin 4} (quiet : (s.port p).state = .seeking ∨ (s.port p).state = .lost) :
    s.alignmentLost p = s.modifyPort p fun x => { x with aligned := false, reception := none } := by
  rcases quiet with h | h <;> rw [State.alignmentLost, h]

section Lost
variable (s : State) (p : Fin 4)

/-- An ACTIVE port that loses alignment, before its routes are visited (R5). -/
def State.portDown : State :=
  ((s.modifyPort p fun x => { x with aligned := false, state := .lost }).countPort p fun c =>
    { c with alignLosses := bump c.alignLosses }).cutReception p

theorem portDown_frame : SameBut s (s.portDown p) [.ports] :=
  ((modifyPort_frame s p _).trans (countPort_frame _ p _)).trans (cutReception_frame _ p)

theorem portDown_onlyPort : OnlyPort s (s.portDown p) p :=
  ((modifyPort_onlyPort s p _).trans (countPort_onlyPort _ p _)).trans (cutReception_onlyPort _ p)

theorem State.port_portDown :
    (s.portDown p).port p =
      { s.port p with
        state := .lost
        aligned := false
        reception := none
        counters :=
          { (s.port p).counters with
            alignLosses := bump (s.port p).counters.alignLosses
            cutPackets := if (s.port p).reception = none then (s.port p).counters.cutPackets
              else bump (s.port p).counters.cutPackets } } := by
  simp [State.portDown, State.port_cutReception]

theorem alignmentLost_active (active : (s.port p).state = .active) :
    s.alignmentLost p = ((s.portDown p).visitRoutes p .portLost).raise (.portLost p) := by
  rw [State.alignmentLost, active]; rfl

end Lost

/-- Settles O8: ACTIVE is the one state in which losing alignment touches the routes; `visitRoutes_spec` says how. -/
theorem alignmentEventsMoveThePort : Obligations.AlignmentEventsMoveThePort := by
  refine ⟨fun p s high on => ?_, fun p s high quiet => ?_, fun p s high active => ?_⟩
  · exact ⟨s.modifyPort p fun x => { x with aligned := true }, event_possible _ high (by simpa using on),
      modifyPort_frame s p _, modifyPort_onlyPort s p _, s.port_modifyPort_self p _⟩
  · have on : (s.port p).state ≠ .off := by rcases quiet with h | h <;> simp [h]
    refine ⟨s.alignmentLost p, event_possible _ high (by simpa using on), ?_⟩
    rw [alignmentLost_quiet quiet]
    exact ⟨modifyPort_frame s p _, modifyPort_onlyPort s p _, s.port_modifyPort_self p _⟩
  · have visited := visitRoutes_frame (s.portDown p) p .portLost
    refine ⟨s.alignmentLost p, event_possible _ high (by simp [active]), alignmentLost_frame s p, ?_⟩
    rw [alignmentLost_active s p active]
    refine ⟨((portDown_onlyPort s p).trans (visited.onlyPort p)).trans ((raise_frame _ _).onlyPort p), ?_, ?_⟩
    · rw [State.raise_port, visited.port, State.port_portDown]
    · have down := portDown_frame s p
      exact ((visitRoutes_spec (s.portDown p) p .portLost).congr_left down.routes down.queue down.pool
        down.notices).raise _

/-! ## Headers -/

/-- A header fails when its check does not match or its length is above 8,192 (R9). -/
theorem headerPasses_eq_false {header : Header}
    (fails : headerCheck [headerByte header 0, headerByte header 1, headerByte header 2] ≠ headerByte header 3 ∨
      8192 < headerLength header) : headerPasses header = false := by
  rcases fails with wrong | long
  · simp [headerPasses, wrong]
  · simp [headerPasses, Nat.not_le.2 long]

/-- Settles O9: the port's state plays no part in what a failed header does. -/
theorem failedHeaderIsCountedAndDiscarded : Obligations.FailedHeaderIsCountedAndDiscarded := by
  intro p header s comes fails
  have arrives : s.headerArrives p header = (s.receive p none .headerError).countPort p fun c =>
      { c with headerErrors := bump c.headerErrors } := by
    simp [State.headerArrives, headerPasses_eq_false fails]
  refine ⟨s.headerArrives p header, exec_headerEvent comes, ?_⟩
  rw [arrives]
  exact ⟨(receive_frame s p _ _).trans (countPort_frame _ p _),
    (modifyPort_onlyPort s p _).trans (countPort_onlyPort _ p _), by simp [State.receive]⟩

/-- A packet whose class alone is counted: it touches the port and PORT_UP (R10). -/
theorem headerEvent_counted {s : State} {p : Fin 4} {header : Header} {f : PacketHeader} {d : Disposition}
    {count : PortCounters → PortCounters} (comes : HeaderComes s p)
    (arrives : s.headerArrives p header = (s.begun p f d).countPort p count) :
    ∃ u, exec (.headerEvent p header) s = .next u.finish ∧ SameBut s u [.ports, .notices] ∧ OnlyPort s u p ∧
      u.port p = (s.port p).headed (newReception (some f) d) count ∧
      u.notices = s.notices.raiseAll ((s.port p).upNotices p) := by
  refine ⟨s.headerArrives p header, exec_headerEvent comes, ?_⟩
  rw [arrives]
  exact ⟨(begun_frame s p f d).trans ((countPort_frame _ p _).mono (by decide)),
    (begun_onlyPort s p f d).trans (countPort_onlyPort _ p _),
    by rw [State.port_countPort_self, State.port_begun]; rfl, s.begun_notices p f d⟩

section RouteHeader
variable (s : State) (p : Fin 4) (r : Fin 64) (header : PacketHeader)

/-- A mark, and a line or side packet at a route that is not ASSEMBLING, stop the timer and move at most one counter of
the route (R40, R41, R54). -/
theorem routeHeader_passing
    (passing : header.code < 0x02 ∨
      (0x07 < header.code ∧ ((s.route r).assembly = .skipping ∨ (s.route r).assembly = .idle))) :
    SameBut s (s.routeHeader p r header) [.routes] ∧ OnlyRoute s (s.routeHeader p r header) r ∧
    (s.routeHeader p r header).route r =
      { s.route r with
        idleTimer := .stopped
        counters :=
          if header.code < 0x02 then (s.route r).counters
          else if (s.route r).assembly = .skipping then
            { (s.route r).counters with skippedPackets := bump (s.route r).counters.skippedPackets }
          else { (s.route r).counters with orphans := bump (s.route r).counters.orphans } } := by
  have stop := stopIdleTimer_frame s r
  have only := stopIdleTimer_onlyRoute s r
  rcases passing with mark | ⟨high, away⟩
  · have e : s.routeHeader p r header = s.stopIdleTimer r := if_pos (by omega)
    rw [e]
    exact ⟨stop, only, by simp [mark]⟩
  · have notMark : ¬ header.code < 0x02 := by omega
    have notLow : ¬ header.code < 0x08 := by omega
    rcases away with h | h
    all_goals
      simp only [State.routeHeader, if_neg notLow, State.route_stopIdleTimer_self, h]
      exact ⟨stop.trans (countRoute_frame _ r _), only.trans (countRoute_onlyRoute _ r _), by simp [notMark, h]⟩

end RouteHeader

/-- Settles O10: the three classes of R10, by content code and gate. -/
theorem goodHeaderIsClassified : Obligations.GoodHeaderIsClassified := by
  intro p header s comes passes
  dsimp only
  have arrives := headerArrives_eq (s := s) (p := p) passes
  dsimp only at arrives
  refine ⟨fun low high => ?_, fun code disabled => ?_, fun passing enabled => ?_⟩
  · rw [if_pos ⟨low, high⟩] at arrives
    exact headerEvent_counted comes arrives
  · rw [if_neg (by omega), if_pos disabled] at arrives
    exact headerEvent_counted comes arrives
  · rw [if_neg (by omega), if_neg enabled] at arrives
    have begun := begun_frame s p (headerFields header) .toRoute
    have same := begun.route (routeOf p (headerFields header).channel)
    obtain ⟨frame, only, route⟩ := routeHeader_passing (s.begun p (headerFields header) .toRoute) p _ _
      (by rwa [same])
    refine ⟨s.headerArrives p header, exec_headerEvent comes, ?_⟩
    rw [arrives]
    refine ⟨(begun.mono (by decide)).trans (frame.mono (by decide)),
      (begun_onlyPort s p _ _).trans (frame.onlyPort p), (begun.onlyRoute _).trans only, ?_, ?_, ?_⟩
    · rw [frame.port, State.port_begun]
    · rw [frame.notices, State.begun_notices]
    · rw [route, same]

/-- A line or side header at an ASSEMBLING route that nothing stops comes down to the allocation of R53: the timer
stops, a line counts as received, the hold point and the filter let the packet pass. -/
theorem routeHeader_accepted {s : State} {p : Fin 4} {r : Fin 64} {header : PacketHeader} {frame : OpenFrame}
    (code : 0x08 ≤ header.code) (assembly : (s.route r).assembly = .assembling frame none)
    (untested : (s.route r).Untested (.content header.code))
    (within : 0x10 ≤ header.code → frame.received < frame.declaredLines)
    (passes : (s.route r).config.filter = [] ∨ header.code ∈ (s.route r).config.filter) :
    s.routeHeader p r header =
      ((s.stopIdleTimer r).setAssembly r (.assembling
        { frame with received := if 0x10 ≤ header.code then frame.received + 1 else frame.received }
        none)).allocate p r header := by
  simp only [State.routeHeader, if_neg (Nat.not_lt.2 code), State.route_stopIdleTimer_self, assembly]
  rw [assembleHeader_untested (by simpa [Route.Untested] using untested),
    countLine_within (by simpa using assembly) within, filterPacket_passes (by simpa using passes)]

/-- Settles O11: the header comes down to `routeHeader_accepted`, and `allocate_spec` says what it takes. -/
theorem headerBecomesTheLineInAssembly : Obligations.HeaderBecomesTheLineInAssembly := by
  intro p header s frame comes passes
  dsimp only
  generalize hf : headerFields header = f
  generalize hr : routeOf p f.channel = r
  intro code enabled assembly untested within filter resources
  have begun := begun_frame s p f .toRoute
  have same := begun.route r
  generalize hv : ((s.begun p f .toRoute).stopIdleTimer r).setAssembly r (.assembling
    { frame with received := if 0x10 ≤ f.code then frame.received + 1 else frame.received } none) = v
  have arrives : s.headerArrives p header = v.allocate p r f := by
    rw [headerArrives_eq passes, ← hv]
    simp only [hf, hr]
    rw [if_neg (by omega), if_neg enabled]
    exact routeHeader_accepted code (same ▸ assembly) (same ▸ untested) within (same ▸ filter)
  have entered : SameBut (s.begun p f .toRoute) v [.routes] := by
    rw [← hv]; exact (stopIdleTimer_frame _ r).trans (setAssembly_frame _ r _)
  have only : OnlyRoute (s.begun p f .toRoute) v r := by
    rw [← hv]; exact (stopIdleTimer_onlyRoute _ r).trans (setAssembly_onlyRoute _ r _)
  have entry : v.route r =
      { s.route r with
        idleTimer := .stopped
        assembly := .assembling
          { frame with received := if 0x10 ≤ f.code then frame.received + 1 else frame.received } none } := by
    rw [← hv]; simp [same]
  have pool : v.pool = s.pool := entered.pool.trans begun.pool
  obtain ⟨frame', onlyPort, onlyRoute, port, taken, route⟩ :=
    allocate_spec (s := v) (p := p) (r := r) (header := f) (congrArg Route.assembly entry)
      (by simpa only [Allocates, entry, pool] using resources)
  refine ⟨s.headerArrives p header, exec_headerEvent comes, ?_⟩
  rw [arrives]
  refine ⟨((begun.mono (by decide)).trans (entered.mono (by decide))).trans (frame'.mono (by decide)),
    ((begun_onlyPort s p f _).trans (entered.onlyPort p)).trans onlyPort,
    ((begun.onlyRoute r).trans only).trans onlyRoute, ?_, ?_, ?_, ?_⟩
  · rw [port, entered.port, State.port_begun]
    simp [Port.headed, newReception]
  · rw [frame'.notices, entered.notices, State.begun_notices]
  · rw [taken, pool]
  · rw [route, entry]

end Sys2Proof.Machine
end

section
/-! The statements about payload bytes and the ends of packets. -/

namespace Sys2Proof.Machine

-- One theorem after another, as in the model's tests.
set_option Elab.async false

/-! ## Payload bytes -/

section Bytes
variable (s : State) (r : Fin 64) (length : Nat) (bytes : List Byte)

/-- A line in assembly collects payload up to the header length (R11, R58). -/
theorem route_writePayload_line {frame : OpenFrame} {line : LineInAssembly}
    (assembly : (s.route r).assembly = .assembling frame (some line)) :
    (s.writePayload r length bytes).route r =
      { s.route r with
        assembly := .assembling frame (some { line with payload := (line.payload ++ bytes).take length }) } := by
  simp [State.writePayload, assembly]

/-- Without a line in assembly nothing is written (R55). -/
theorem writePayload_none (assembly : ∀ frame line, (s.route r).assembly ≠ .assembling frame (some line)) :
    s.writePayload r length bytes = s := by
  unfold State.writePayload
  split
  · next frame line h => exact absurd h (assembly frame line)
  · rfl

theorem writePayload_onlyRoute : OnlyRoute s (s.writePayload r length bytes) r := by
  unfold State.writePayload
  split
  · exact setAssembly_onlyRoute s r _
  · exact fun _ _ => rfl

end Bytes

/-- The part that the bytes of a packet reach first: the line in assembly of a TO_ROUTE packet's route (R11). -/
def State.bytesAtRoute (s : State) (p : Fin 4) (x : Reception) (bytes : List Byte) : State :=
  match x.disposition, x.header with
  | .toRoute, some header => s.writePayload (routeOf p header.channel) header.length (x.settled bytes)
  | _, _ => s

section BytesArrive
variable {s : State} {p : Fin 4} {x : Reception} {bytes : List Byte}

theorem bytesArrive_eq (held : (s.port p).reception = some x) :
    s.bytesArrive p bytes =
      (s.bytesAtRoute p x bytes).modifyPort p fun y => { y with reception := some (x.deliver bytes) } := by
  simp only [State.bytesArrive, held]; rfl

theorem bytesAtRoute_frame : SameBut s (s.bytesAtRoute p x bytes) [.routes] := by
  unfold State.bytesAtRoute
  split
  · exact writePayload_frame s _ _ _
  · exact .refl s _

theorem bytesAtRoute_of_not_toRoute (away : x.disposition ≠ .toRoute) : s.bytesAtRoute p x bytes = s := by
  unfold State.bytesAtRoute
  split
  · next h _ => exact absurd h away
  · rfl

theorem bytesAtRoute_toRoute {header : PacketHeader} (routed : x.disposition = .toRoute)
    (some : x.header = some header) :
    s.bytesAtRoute p x bytes = s.writePayload (routeOf p header.channel) header.length (x.settled bytes) := by
  simp only [State.bytesAtRoute, routed, some]

end BytesArrive

/-- Settles O13: the bytes reach the line in assembly, then the packet's record. -/
theorem payloadBytesAreCollected : Obligations.PayloadBytesAreCollected := by
  intro p bytes s x high held
  have frame : SameBut s (s.bytesAtRoute p x bytes) [.routes] := bytesAtRoute_frame
  refine ⟨s.bytesArrive p bytes, event_possible _ high (by simp [held]), bytesArrive_frame s p bytes, ?_⟩
  rw [bytesArrive_eq held]
  refine ⟨(frame.onlyPort p).trans (modifyPort_onlyPort _ p _), ?_, fun away => ?_, fun header routed some => ?_⟩
  · rw [State.port_modifyPort_self, frame.port]
  · rw [State.modifyPort_routes, bytesAtRoute_of_not_toRoute away]
  · rw [bytesAtRoute_toRoute routed some]
    refine ⟨(writePayload_onlyRoute s _ _ _).trans ((modifyPort_frame _ p _).onlyRoute _), fun frame line h => ?_,
      fun h => ?_⟩
    · rw [State.modifyPort_route, route_writePayload_line s _ _ _ h]
    · rw [State.modifyPort_route, writePayload_none s _ _ _ h]

/-! ## The judgement of a packet -/

/-- The last two bytes delivered, or all of fewer: what may be the packet's payload check (R12). -/
def lastTwo (bytes : List Byte) : List Byte := bytes.drop (bytes.length - 2)

/-- The bytes delivered before the last two: the payload (R12). -/
def butLastTwo (bytes : List Byte) : List Byte := bytes.take (bytes.length - 2)

theorem deliver_eq (x : Reception) (bytes : List Byte) :
    x.deliver bytes =
      { x with
        received := min (x.received + bytes.length) Config.max16
        check := check16From x.check (butLastTwo (x.tail ++ bytes))
        tail := lastTwo (x.tail ++ bytes)
        head := (x.head ++ butLastTwo (x.tail ++ bytes)).take 6 } := rfl

/-- A list is what stands before its last two bytes, and these; and only two bytes have anything before them. -/
theorem butLastTwo_append_lastTwo (bytes : List Byte) :
    butLastTwo bytes ++ lastTwo bytes = bytes ∧ (butLastTwo bytes = [] ∨ (lastTwo bytes).length = 2) := by
  refine ⟨List.take_append_drop _ _, ?_⟩
  by_cases h : bytes.length ≤ 2
  · exact .inl (by simp [butLastTwo, Nat.sub_eq_zero_of_le h])
  · exact .inr (by simp only [lastTwo, List.length_drop]; omega)

section LastTwo
variable {more : List Byte} (before : List Byte)

theorem lastTwo_append_of_le (h : 2 ≤ more.length) : lastTwo (before ++ more) = lastTwo more := by
  have e : (before ++ more).length - 2 = before.length + (more.length - 2) := by rw [List.length_append]; omega
  rw [lastTwo, e, List.drop_length_add_append, lastTwo]

theorem butLastTwo_append_of_le (h : 2 ≤ more.length) :
    butLastTwo (before ++ more) = before ++ butLastTwo more := by
  have e : (before ++ more).length - 2 = before.length + (more.length - 2) := by rw [List.length_append]; omega
  rw [butLastTwo, e, List.take_length_add_append, butLastTwo]

end LastTwo

/-- Holding two bytes back and taking more in leaves what all the bytes together leave. -/
theorem lastTwo_lastTwo_append (first second : List Byte) :
    lastTwo (lastTwo first ++ second) = lastTwo (first ++ second) ∧
    butLastTwo first ++ butLastTwo (lastTwo first ++ second) = butLastTwo (first ++ second) := by
  obtain ⟨whole, none | two⟩ := butLastTwo_append_lastTwo first
  · rw [none, List.nil_append] at whole
    rw [none, whole]
    exact ⟨rfl, rfl⟩
  · have enough : 2 ≤ (lastTwo first ++ second).length := by rw [List.length_append]; omega
    have split : first ++ second = butLastTwo first ++ (lastTwo first ++ second) := by
      rw [← List.append_assoc, whole]
    rw [split, lastTwo_append_of_le _ enough, butLastTwo_append_of_le _ enough]
    exact ⟨rfl, rfl⟩

/-- The record of a packet does not depend on how its bytes were cut into chunks. -/
theorem deliver_deliver (x : Reception) (first second : List Byte) :
    (x.deliver first).deliver second = x.deliver (first ++ second) := by
  obtain ⟨tail, payload⟩ := lastTwo_lastTwo_append (x.tail ++ first) second
  rw [List.append_assoc] at tail payload
  have received : min (min (x.received + first.length) Config.max16 + second.length) Config.max16 =
      min (x.received + (first ++ second).length) Config.max16 := by
    rw [List.length_append]; omega
  have head : (((x.head ++ butLastTwo (x.tail ++ first)).take 6) ++
      butLastTwo (lastTwo (x.tail ++ first) ++ second)).take 6 =
        (x.head ++ butLastTwo (x.tail ++ (first ++ second))).take 6 := by
    rw [← payload, ← List.append_assoc, List.take_append, List.take_append (l₁ := x.head ++ _), List.take_take,
      List.length_take]
    congr 2
    omega
  simp only [deliver_eq, received, tail, head, check16From, ← List.foldl_append, payload]

section Judged
variable (header : Option PacketHeader) (d : Disposition) (payload : List Byte) (lo hi : Byte) (bytes : List Byte)

theorem butLastTwo_checked : butLastTwo (payload ++ [lo, hi]) = payload := by simp [butLastTwo]

theorem lastTwo_checked : lastTwo (payload ++ [lo, hi]) = [lo, hi] := by simp [lastTwo]

/-- The record of a packet whose payload and check bytes came. -/
theorem deliver_checked :
    (newReception header d).deliver (payload ++ [lo, hi]) =
      { newReception header d with
        received := min (payload.length + 2) Config.max16
        check := recordCheck payload
        tail := [lo, hi]
        head := payload.take 6 } := by
  simp [deliver_eq, newReception, recordCheck, butLastTwo_checked, lastTwo_checked]

theorem checkMatches_iff :
    ((newReception header d).deliver (payload ++ [lo, hi])).checkMatches = true ↔
      checkBytes (recordCheck payload) = [lo, hi] := by
  rw [deliver_checked, checkBytes_eq_iff]
  exact beq_iff_eq

/-- A packet is intact when its check matches and its payload has the header's length. The count of the bytes received
stays at 65,535, which no header length reaches (R12). -/
theorem intact_iff (f : PacketHeader) (bound : payload.length ≤ 65533 ∨ f.length < 65533) :
    ((newReception header d).deliver (payload ++ [lo, hi])).intact f = true ↔
      payload.length = f.length ∧ checkBytes (recordCheck payload) = [lo, hi] := by
  have count : (((newReception header d).deliver (payload ++ [lo, hi])).payloadCount == f.length) = true ↔
      payload.length = f.length := by
    simp only [deliver_checked, Reception.payloadCount, Config.max16, beq_iff_eq]
    omega
  rw [Reception.intact, Bool.and_eq_true, checkMatches_iff, count, and_comm]

/-- Fewer than two bytes hold no check (R12). -/
theorem checkMatches_of_short (short : bytes.length ≤ 1) :
    ((newReception header d).deliver bytes).checkMatches = false := by
  have tail : ((newReception header d).deliver bytes).tail.length < 2 := by
    simp only [deliver_eq, newReception, List.nil_append, lastTwo, List.length_drop]; omega
  unfold Reception.checkMatches
  split
  · next h => simp [h] at tail
  · rfl

/-- The payload count of an intact packet is its header length. -/
theorem length_of_intact {f : PacketHeader} (bound : f.length < 65533)
    (intact : ((newReception header d).deliver bytes).intact f = true) : bytes.length = f.length + 2 := by
  rw [Reception.intact, Bool.and_eq_true, beq_iff_eq] at intact
  obtain ⟨checked, count⟩ := intact
  have long : 2 ≤ bytes.length := by
    by_contra short
    rw [checkMatches_of_short header d bytes (by omega)] at checked
    cases checked
  simp only [Reception.payloadCount, deliver_eq, newReception, Config.max16] at count
  omega

end Judged

/-- A good opening mark is intact and has the header length 6 (R13). -/
theorem intact_of_openingMark {x : Reception} {f : PacketHeader} (h : x.openingMark f ≠ none) :
    x.intact f = true ∧ f.length = 6 := by
  unfold Reception.openingMark at h
  split at h
  · simp only [ne_eq, ite_eq_right_iff, reduceCtorEq, imp_false, not_not, Bool.and_eq_true, beq_iff_eq,
      decide_eq_true_eq, and_assoc] at h
    obtain ⟨intact, six, -⟩ := h
    exact ⟨intact, six⟩
  · exact absurd rfl h

/-- A good closing mark is intact and has the header length 2 (R13). -/
theorem intact_of_closingMark {x : Reception} {f : PacketHeader} (h : x.closingMark f ≠ none) :
    x.intact f = true ∧ f.length = 2 := by
  unfold Reception.closingMark at h
  split at h
  · simpa using h
  · exact absurd rfl h

/-- Settles O14: the record of a packet is that of its bytes in one chunk, and `intact_iff` judges it. -/
theorem deliveredPacketIsJudged : Obligations.DeliveredPacketIsJudged := by
  refine ⟨fun header d => deliver_deliver _, fun header d payload lo hi => ?_, fun header d bytes f short => ?_,
    fun f d n0 n1 l0 l1 b0 b1 lo hi six => ?_, fun f d n0 n1 lo hi two => ?_, fun f d bytes => ⟨fun h => ?_, fun h => ?_⟩⟩
  · refine ⟨butLastTwo_checked payload lo hi, checkMatches_iff header d payload lo hi, fun bound => ?_,
      intact_iff header d payload lo hi⟩
    simp only [deliver_checked, Reception.payloadCount, Config.max16]
    omega
  · have unmatched := checkMatches_of_short header d bytes short
    exact ⟨unmatched, by rw [Reception.intact, unmatched, Bool.false_and]⟩
  · have judged := intact_iff (some f) d [n0, n1, l0, l1, b0, b1] lo hi f (.inl (by simp))
    have head := congrArg Reception.head (deliver_checked (some f) d [n0, n1, l0, l1, b0, b1] lo hi)
    simp only [List.cons_append, List.nil_append] at judged head
    simp [Reception.openingMark, head, six, judged, and_assoc]
  · have judged := intact_iff (some f) d [n0, n1] lo hi f (.inl (by simp))
    have head := congrArg Reception.head (deliver_checked (some f) d [n0, n1] lo hi)
    simp only [List.cons_append, List.nil_append] at judged head
    simp [Reception.closingMark, head, two, judged]
  · by_contra good
    obtain ⟨intact, six⟩ := intact_of_openingMark good
    have := length_of_intact (some f) d bytes (by omega) intact
    omega
  · by_contra good
    obtain ⟨intact, two⟩ := intact_of_closingMark good
    have := length_of_intact (some f) d bytes (by omega) intact
    omega

end Sys2Proof.Machine
end

section
/-! The ends of packets (R12 to R14, R41, R55, R57 to R59). -/

namespace Sys2Proof.Machine

-- One theorem after another, as in the model's tests.
set_option Elab.async false

/-! ## The operations at a packet end -/

section Timer
variable (s : State) (r : Fin 64)

/-- The frame idle timer starts at an ASSEMBLING or SKIPPING route (R41). -/
theorem route_startIdleTimer :
    (s.startIdleTimer r).route r =
      { s.route r with
        idleTimer := if (s.route r).assembly = .idle then (s.route r).idleTimer
          else .running (s.route r).config.idleLimit } := by
  unfold State.startIdleTimer
  split
  · next h => rw [if_pos h]
  · next h => rw [State.route_modifyRoute_self, if_neg h]

theorem startIdleTimer_onlyRoute : OnlyRoute s (s.startIdleTimer r) r := by
  unfold State.startIdleTimer
  split
  · exact fun _ _ => rfl
  · exact modifyRoute_onlyRoute s r _

end Timer

/-- The part after the packet in reception left its port (R12). -/
def State.dropPacket (s : State) (p : Fin 4) : State := s.modifyPort p fun y => { y with reception := none }

/-- The part after a line or side packet left its port, with PAYLOAD_ERRORS moved for a damaged one (R12). -/
def State.dropLine (s : State) (p : Fin 4) (intact : Bool) : State :=
  (s.dropPacket p).countPort p fun c =>
    { c with payloadErrors := if intact then c.payloadErrors else bump c.payloadErrors }

section Drop
variable (s : State) (p : Fin 4) (intact : Bool)

theorem dropPacket_frame : SameBut s (s.dropPacket p) [.ports] := modifyPort_frame s p _

theorem dropPacket_onlyPort : OnlyPort s (s.dropPacket p) p := modifyPort_onlyPort s p _

theorem dropLine_frame : SameBut s (s.dropLine p intact) [.ports] :=
  (dropPacket_frame s p).trans (countPort_frame _ p _)

theorem dropLine_onlyPort : OnlyPort s (s.dropLine p intact) p :=
  (dropPacket_onlyPort s p).trans (countPort_onlyPort _ p _)

/-- An intact packet is not counted. -/
theorem dropLine_intact : s.dropLine p true = s.dropPacket p :=
  State.modifyPort_of_eq (s := s.dropPacket p) (f := fun y => { y with counters := y.counters }) rfl

theorem port_dropLine :
    (s.dropLine p intact).port p =
      { s.port p with
        reception := none
        counters :=
          { (s.port p).counters with
            payloadErrors := if intact then (s.port p).counters.payloadErrors
              else bump (s.port p).counters.payloadErrors } } := by
  simp [State.dropLine, State.dropPacket]

end Drop

section PacketEnd
variable {s : State} {p : Fin 4} {x : Reception} {header : PacketHeader}

theorem exec_endEvent (ends : PacketEnds s p x header) :
    exec (.endEvent p) s = .next ((s.dropPacket p).endAtRoute p x header).finish := by
  obtain ⟨high, held, routed, some⟩ := ends
  have e : s.packetEnds p = (s.dropPacket p).endAtRoute p x header := by
    simp only [State.packetEnds, held, routed, some]; rfl
  rw [← e]
  exact event_possible _ high (by simp [held])

/-- The end of a line or side packet (R12, R55 to R58). -/
theorem endAtRoute_line (code : 0x08 ≤ header.code) :
    (s.dropPacket p).endAtRoute p x header =
      ((s.dropLine p (x.intact header)).packetEnd (routeOf p header.channel) (!x.intact header || x.long)
        x.long).startIdleTimer (routeOf p header.channel) := by
  rw [State.endAtRoute, if_neg (by omega), if_neg (by omega)]
  rcases x.intact header
  · rfl
  · rw [dropLine_intact]; rfl

/-- A mark that is not good only tells the route that reception ended (R13, R41). -/
theorem endAtRoute_badMark (bad : (header.code = 0x00 ∧ x.openingMark header = none) ∨
    (header.code = 0x01 ∧ x.closingMark header = none)) :
    s.endAtRoute p x header = (s.badMark p).startIdleTimer (routeOf p header.channel) := by
  rcases bad with ⟨code, mark⟩ | ⟨code, mark⟩ <;> simp [State.endAtRoute, code, mark]

/-- A packet that is not TO_ROUTE ends at the port, and moves UNROUTED when ROUTE_DISABLE made it UNROUTED (R9, R10,
R14). -/
theorem packetEnds_away (held : (s.port p).reception = some x) (away : x.disposition ≠ .toRoute) :
    s.packetEnds p =
      if x.disposition = .unrouted ∧ x.disabledMeanwhile = true then
        (s.dropPacket p).countPort p fun c => { c with unrouted := bump c.unrouted }
      else s.dropPacket p := by
  rcases d : x.disposition
  · exact absurd d away
  all_goals
    simp only [State.packetEnds, held, d, true_and, reduceCtorEq, false_and, if_false]
    rfl

end PacketEnd

/-- Settles O20: a bad mark and a packet that is not TO_ROUTE change their port alone, the mark also the timer. -/
theorem otherPacketsJustEnd : Obligations.OtherPacketsJustEnd := by
  refine ⟨fun p s x header ends bad => ?_, fun p s x high held away => ?_⟩
  · dsimp only
    refine ⟨_, exec_endEvent ends, ?_⟩
    rw [endAtRoute_badMark bad]
    have marked : SameBut s ((s.dropPacket p).badMark p) [.ports] :=
      (dropPacket_frame s p).trans (badMark_frame _ p)
    have timer := startIdleTimer_frame ((s.dropPacket p).badMark p) (routeOf p header.channel)
    refine ⟨(marked.mono (by decide)).trans (timer.mono (by decide)),
      ((dropPacket_onlyPort s p).trans (countPort_onlyPort _ p _)).trans (timer.onlyPort p),
      (marked.onlyRoute _).trans (startIdleTimer_onlyRoute _ _), ?_, ?_⟩
    · rw [timer.port]; simp [State.badMark, State.dropPacket]
    · rw [route_startIdleTimer, marked.route]
  · refine ⟨s.packetEnds p, event_possible _ high (by simp [held]), ?_⟩
    rw [packetEnds_away held away]
    split
    · exact ⟨(dropPacket_frame s p).trans (countPort_frame _ p _),
        (dropPacket_onlyPort s p).trans (countPort_onlyPort _ p _), by simp [State.dropPacket]⟩
    · exact ⟨dropPacket_frame s p, dropPacket_onlyPort s p, by simp [State.dropPacket]⟩

/-! ## The end of a line in assembly -/

section Line
variable {s : State} {r : Fin 64} {frame : OpenFrame} {line : LineInAssembly} {damaged long : Bool}

/-- The record that a line in assembly becomes (R58). -/
def LineInAssembly.record (line : LineInAssembly) (r : Fin 64) (y : Route) (frame : OpenFrame)
    (damaged long : Bool) : StreamRecord :=
  .of r y line.segments
    (if 0x10 ≤ line.code then
      .line (y.config.overrideCode.getD line.code) damaged long (frame.forwarded + 1) line.payload
    else .side line.code damaged line.payload)

/-- Everything that forwarding a line in assembly does (R58, R59). -/
theorem forward_spec :
    let u := s.forward r frame line damaged long
    SameBut s u [.routes, .queue] ∧ OnlyRoute s u r ∧
    u.queue = s.queue ++ [line.record r (s.route r) frame damaged long] ∧
    u.route r =
      { s.route r with
        assembly := .assembling
          { frame with
            forwarded := if 0x10 ≤ line.code then frame.forwarded + 1 else frame.forwarded
            sealValue := frame.sealValue.map fun v => sealFrom v line.payload }
          none
        counters :=
          { (s.route r).counters with
            linesForwarded := if 0x10 ≤ line.code then bump (s.route r).counters.linesForwarded
              else (s.route r).counters.linesForwarded
            sidesForwarded := if 0x10 ≤ line.code then (s.route r).counters.sidesForwarded
              else bump (s.route r).counters.sidesForwarded } } := by
  refine ⟨forward_frame s r frame line damaged long, ?_⟩
  unfold State.forward
  dsimp only
  have only (t : State) (a : Assembly) (f : RouteCounters → RouteCounters) :
      OnlyRoute t ((t.setAssembly r a).countRoute r f) r :=
    (setAssembly_onlyRoute t r a).trans (countRoute_onlyRoute _ r f)
  split
  · next h =>
    have isLine := isLineCode_eq_true.1 h
    exact ⟨((enqueue_frame s r _ _).onlyRoute r).trans (only _ _ _),
      by simp [LineInAssembly.record, StreamRecord.of, isLine], by simp [isLine]⟩
  · next h =>
    have isSide := mt isLineCode_eq_true.2 h
    exact ⟨((enqueue_frame s r _ _).onlyRoute r).trans (only _ _ _),
      by simp [LineInAssembly.record, StreamRecord.of, isSide], by simp [isSide]⟩

/-- A packet that is not its route's line in assembly ends without an effect there (R55). -/
theorem packetEnd_other (assembly : ∀ frame line, (s.route r).assembly ≠ .assembling frame (some line)) :
    s.packetEnd r damaged long = s := by
  unfold State.packetEnd
  split
  · next frame line h => exact absurd h (assembly frame line)
  · rfl

/-- A damaged line that no DAMAGE hold point stops meets the policy (R56, R57). -/
theorem packetEnd_damaged (assembly : (s.route r).assembly = .assembling frame (some line))
    (untested : (s.route r).Untested .damage) :
    s.packetEnd r true long = s.applyPolicy r frame line long := by
  simp only [State.packetEnd, assembly, if_true, State.damagedLine, untested.armedFor]

theorem packetEnd_intact (assembly : (s.route r).assembly = .assembling frame (some line)) :
    s.packetEnd r false long = s.forward r frame line false false := by
  simp [State.packetEnd, assembly]

/-- Everything that the end of a line in assembly does when the line is forwarded, intact or damaged (R57 to R59). -/
theorem packetEnd_forwarded (assembly : (s.route r).assembly = .assembling frame (some line))
    (short : damaged = false → long = false)
    (policy : damaged = true → (s.route r).Untested .damage ∧ (s.route r).config.policy = .forward) :
    let u := s.packetEnd r damaged long
    SameBut s u [.routes, .queue] ∧ OnlyRoute s u r ∧
    u.queue = s.queue ++ [line.record r (s.route r) frame damaged long] ∧
    u.route r =
      { s.route r with
        assembly := .assembling
          { frame with
            forwarded := if 0x10 ≤ line.code then frame.forwarded + 1 else frame.forwarded
            damagedLines := frame.damagedLines || damaged
            sealValue := frame.sealValue.map fun v => sealFrom v line.payload }
          none
        counters :=
          { (s.route r).counters with
            linesForwarded := if 0x10 ≤ line.code then bump (s.route r).counters.linesForwarded
              else (s.route r).counters.linesForwarded
            sidesForwarded := if 0x10 ≤ line.code then (s.route r).counters.sidesForwarded
              else bump (s.route r).counters.sidesForwarded
            damagedForwarded := if damaged then bump (s.route r).counters.damagedForwarded
              else (s.route r).counters.damagedForwarded } } := by
  cases damaged
  case false =>
    rw [packetEnd_intact assembly, short rfl]
    simpa using forward_spec (s := s) (r := r) (frame := frame) (line := line) (damaged := false) (long := false)
  case true =>
    obtain ⟨untested, forwards⟩ := policy rfl
    obtain ⟨same, only, queue, route⟩ := forward_spec (s := s) (r := r)
      (frame := { frame with damagedLines := true }) (line := line) (damaged := true) (long := long)
    rw [packetEnd_damaged assembly untested, State.applyPolicy, forwards]
    refine ⟨same.trans ((countRoute_frame _ r _).mono (by decide)), only.trans (countRoute_onlyRoute _ r _), queue, ?_⟩
    simp only [State.route_countRoute_self, route, Bool.or_true, if_true]

/-- Under ABORT a damaged line ends its frame (R57). -/
theorem packetEnd_aborted (assembly : (s.route r).assembly = .assembling frame (some line))
    (untested : (s.route r).Untested .damage) (policy : (s.route r).config.policy = .abort) :
    FrameEnded s (s.packetEnd r true long) r .damage := by
  rw [packetEnd_damaged assembly untested, State.applyPolicy, policy]
  exact abort_spec s r .damage frame (some line) assembly

end Line

/-- A line or side packet leaves its port, then meets its route, and at last the timer starts: `v` is the part between
the port and the route. -/
theorem endEvent_line {s : State} {p : Fin 4} {x : Reception} {header : PacketHeader} (ends : PacketEnds s p x header)
    (code : 0x08 ≤ header.code) :
    ∃ v, exec (.endEvent p) s = .next ((v.packetEnd (routeOf p header.channel) (!x.intact header || x.long)
        x.long).startIdleTimer (routeOf p header.channel)).finish ∧
      SameBut s v [.ports] ∧ OnlyPort s v p ∧
      v.port p =
        { s.port p with
          reception := none
          counters :=
            { (s.port p).counters with
              payloadErrors := if x.intact header then (s.port p).counters.payloadErrors
                else bump (s.port p).counters.payloadErrors } } :=
  ⟨s.dropLine p (x.intact header), by rw [exec_endEvent ends, endAtRoute_line code], dropLine_frame s p _,
    dropLine_onlyPort s p _, port_dropLine s p _⟩

/-- Settles O18: the end of the packet comes down to the one of the three `packetEnd` lemmas that its case names, and
the timer starts. -/
theorem lineEndForwardsOrAborts : Obligations.LineEndForwardsOrAborts := by
  refine ⟨fun p s x header ends code => ?_, fun p s x header frame line ends code => ?_⟩
  all_goals
    obtain ⟨v, exec, left, only, port⟩ := endEvent_line ends code
    dsimp only
    generalize routeOf p header.channel = r at exec ⊢
    have same := left.route r
    intro assembly
    rw [← same] at assembly
  · refine ⟨_, exec, ?_⟩
    rw [packetEnd_other assembly]
    have timer := startIdleTimer_frame v r
    exact ⟨(left.mono (by decide)).trans (timer.mono (by decide)), only.trans (timer.onlyPort p),
      (left.onlyRoute r).trans (startIdleTimer_onlyRoute v r), (timer.port p).trans port,
      by rw [route_startIdleTimer, same]⟩
  · generalize hd : (!x.intact header || x.long) = damaged at exec ⊢
    have timer := startIdleTimer_frame (v.packetEnd r damaged x.long) r
    have started := startIdleTimer_onlyRoute (v.packetEnd r damaged x.long) r
    refine ⟨fun forwards => ?_, fun isDamaged untested policy => ?_⟩
    · have short : damaged = false → x.long = false := fun h => by
        rw [h, Bool.or_eq_false_iff] at hd
        exact hd.2
      have allowed : damaged = true → (v.route r).Untested .damage ∧ (v.route r).config.policy = .forward := fun h => by
        rw [same]
        exact forwards.resolve_left (by simp [h])
      obtain ⟨ended, onlyRoute, queue, route⟩ := packetEnd_forwarded (s := v) (damaged := damaged) (long := x.long)
        assembly short allowed
      refine ⟨_, exec, ?_, ?_, ?_, ?_, ?_, ?_⟩
      · exact ((left.mono (by decide)).trans (ended.mono (by decide))).trans (timer.mono (by decide))
      · exact (only.trans (ended.onlyPort p)).trans (timer.onlyPort p)
      · exact ((left.onlyRoute r).trans onlyRoute).trans started
      · rw [timer.port, ended.port, port]
      · rw [timer.queue, queue, left.queue, same]
        simp [LineInAssembly.record]
      · rw [route_startIdleTimer, route, same]
        simp
    · subst isDamaged
      rw [← same] at untested policy
      obtain ⟨ended, onlyRoute, route, queue, pool, notices⟩ := packetEnd_aborted (long := x.long) assembly untested
        policy
      refine ⟨_, exec, ?_, ?_, ?_, ?_, ?_, ?_, ?_, ?_⟩
      · exact ((left.mono (by decide)).trans (ended.mono (by decide))).trans (timer.mono (by decide))
      · exact (only.trans (ended.onlyPort p)).trans (timer.onlyPort p)
      · exact ((left.onlyRoute r).trans onlyRoute).trans started
      · rw [timer.port, ended.port, port]
      · rw [timer.queue, queue, left.queue, Route.endRecords, assembly, same]
      · rw [timer.pool, pool, left.pool, Route.lineSegments, Route.linesInAssembly, assembly]
      · rw [timer.notices, notices, left.notices, Route.endNotices, assembly, same]
      · rw [route_startIdleTimer, route, same]
        simp [Route.ended, same ▸ assembly, AbortReason.assemblyAfter]

end Sys2Proof.Machine
end

section
/-! PORT_SET and the reads of one entry: PORT_STATUS, ROUTE_READ and COUNTERS_READ. -/

namespace Sys2Proof.Machine

-- One theorem after another, as in the model's tests.
set_option Elab.async false

/-! ## The three reads -/

/-- The reception fields of PORT_STATUS, with the zeros of absent ones written out (R16, R182). -/
theorem receptionBytes_eq (reception : Option Reception) :
    receptionBytes reception =
      match reception with
      | none => List.replicate 9 0
      | some y =>
        [1, y.disposition.code]
          ++ (match y.header with
              | some h => [byte h.channel.val, byte h.code] ++ word16 h.length
              | none => [0, 0, 0, 0])
          ++ word16 y.received ++ [flagByte y.long] := by
  rcases reception with _ | ⟨_ | h, _, _, _, _, _, _, _⟩
  · rfl
  · simp [receptionBytes, word16, byte]
  · rfl

theorem openFrames_eq_countP (s : State) (p : Fin 4) :
    s.openFrames p = (List.finRange 16).countP fun c => (s.route (routeOf p c)).isAssembling :=
  List.countP_eq_length_filter.symm

theorem holdPointBytes_eq (holdPoint : Option HoldPoint) :
    holdPointBytes holdPoint =
      match holdPoint with
      | some h => [1, h.kind.code, h.condition.name.code] ++ word16 h.condition.value ++ [flagByte h.armed]
      | none => List.replicate 6 0 := by
  cases holdPoint <;> rfl

theorem lineBytes_eq (assembly : Assembly) :
    assembly.lineBytes =
      match assembly with
      | .assembling _ (some line) => [1, byte line.code, byte line.segments]
      | _ => List.replicate 3 0 := by
  rcases assembly with _ | ⟨_, _ | _⟩ | _ <;> rfl

theorem frameBytes_eq (assembly : Assembly) :
    assembly.frameBytes =
      match assembly with
      | .assembling frame _ =>
        1 :: word16 frame.number ++ word16 frame.declaredLines ++ word16 frame.declaredBytes
          ++ word16 frame.received ++ word16 frame.forwarded ++ [frame.flags]
          ++ (match frame.sealValue with
              | some v => 1 :: word32 v.toNat
              | none => List.replicate 5 0)
      | _ => List.replicate 17 0 := by
  rcases assembly with _ | ⟨⟨_, _, _, _, _, _, _, _ | _⟩, _⟩ | _ <;> rfl

/-- Taking a record moves no counter. -/
theorem counterSet_takeRecord (s : State) (src : Source) (set : CounterScope) :
    (s.takeRecord src).counterSet set = s.counterSet set := by
  rcases set with r | p | _ | k
  · simp [State.counterSet]
  · simp [State.counterSet]
  · simp [State.counterSet]
  · cases src <;> cases k <;> rfl

theorem readScope_keep {set : CounterScope} {arguments : List Byte}
    (h : arguments = set.bytes ++ [0] ∧ set ≠ .trunk ∨ arguments = [2, 0] ∧ set = .trunk) :
    ∃ scope rest, arguments = scope :: rest ∧ readScope scope rest = some (some (set, false)) := by
  rcases h with ⟨rfl, numbered⟩ | ⟨rfl, rfl⟩
  · rcases set with r | p | _ | k
    · exact ⟨_, _, rfl, by simp [readScope, readRoute_byte, readFlag]⟩
    · exact ⟨_, _, rfl, by simp [readScope, readPort_byte, readFlag]⟩
    · exact absurd rfl numbered
    · exact ⟨_, _, rfl, by simp [readScope, readSource_code, readFlag]⟩
  · exact ⟨_, _, rfl, rfl⟩

/-- A number that is no port reads as none. -/
theorem readPort_eq_none {b : Byte} (h : 4 ≤ b.toNat) : readPort b = none := dif_neg (by omega)

/-- A number that is no route reads as none. -/
theorem readRoute_eq_none {b : Byte} (h : 64 ≤ b.toNat) : readRoute b = none := dif_neg (by omega)

/-- Settles O29: the reports are the layouts above, and the entry is read from the part that took the record. -/
theorem entryReadsReport : Obligations.EntryReadsReport := by
  intro s src record
  refine ⟨fun p serves arguments => ?_, fun r serves arguments => ?_, fun set serves arguments => ?_,
    fun n low high serves arguments => ?_, fun n low high serves arguments => ?_⟩
  · rw [exec_portStatus serves, answerOf, arguments]
    simp only [portStatus, readPort_byte, succeed, receptionBytes_eq, openFrames_eq_countP, State.takeRecord_port,
      State.takeRecord_route] <;> rfl
  · rw [exec_routeRead serves, answerOf, arguments]
    simp only [routeRead, readRoute_byte, succeed, Route.report, holdPointBytes_eq, lineBytes_eq, frameBytes_eq,
      State.takeRecord_route] <;> rfl
  · obtain ⟨scope, rest, given, read⟩ := readScope_keep arguments
    rw [exec_countersRead serves, answerOf, given]
    simp [countersRead, read, succeed, counterSet_takeRecord, flagByte]
  · rw [Refuses, exec_portStatus serves, answerOf, arguments]
    have none : readPort (byte n) = none := readPort_eq_none (by rw [byte_toNat]; omega)
    simp only [portStatus, none, refuse]
  · rw [Refuses, exec_routeRead serves, answerOf, arguments]
    have none : readRoute (byte n) = none := readRoute_eq_none (by rw [byte_toNat]; omega)
    simp only [routeRead, none, refuse]

/-! ## PORT_SET -/

theorem readFlag_eq_none {b : Byte} (h0 : b ≠ 0) (h1 : b ≠ 1) : readFlag b = none := by
  rw [readFlag, if_neg (by simpa using h0), if_neg (by simpa using h1)]

theorem readLanes_eq_none {b : Byte} (h1 : b ≠ 1) (h2 : b ≠ 2) (h4 : b ≠ 4) : readLanes b = none := by
  rw [readLanes, if_neg (by simpa using h1), if_neg (by simpa using h2), if_neg (by simpa using h4)]

section PortSet
variable {s : State} {p : Fin 4} {src : Source}

/-- The three refusals of PORT_SET that come before the port is looked at, in their order (R15). -/
theorem portSet_noLease {args : List Byte} (other : s.lease.holder ≠ some src) :
    portSet src args (s.takeRecord src) = refuse (s.takeRecord src) .noLease [] := by
  simp [portSet, takeRecord_holdsLease, other]

theorem portSet_badLength {args : List Byte} (holder : s.lease.holder = some src) (length : args.length ≠ 3) :
    portSet src args (s.takeRecord src) = refuse (s.takeRecord src) .badLength [] := by
  unfold portSet
  rw [takeRecord_holdsLease, if_pos (decide_eq_true holder)]
  split
  · exact absurd rfl length
  · rfl

theorem portSet_badArg {port enable lanes : Byte} (holder : s.lease.holder = some src)
    (outside : 3 < port.toNat ∨ (enable ≠ 0 ∧ enable ≠ 1) ∨ (lanes ≠ 1 ∧ lanes ≠ 2 ∧ lanes ≠ 4)) :
    portSet src [port, enable, lanes] (s.takeRecord src) = refuse (s.takeRecord src) .badArg [] := by
  simp only [portSet, takeRecord_holdsLease, if_pos (decide_eq_true holder)]
  rcases outside with h | ⟨h0, h1⟩ | ⟨h1, h2, h4⟩
  · rw [readPort_eq_none h]
  · rw [readFlag_eq_none h0 h1]; split <;> simp_all
  · rw [readLanes_eq_none h1 h2 h4]; split <;> simp_all

/-- PORT_SET with arguments in range: a lane count that a port in use does not have is refused, and every other one is
carried out (R15). -/
theorem portSet_eq {enable : Bool} {lanes : Lanes} (holder : s.lease.holder = some src) :
    portSet src [byte p.val, flagByte enable, byte lanes.count] (s.takeRecord src) =
      if (s.port p).lanes ≠ lanes ∧ (s.port p).state ≠ .off then refuse (s.takeRecord src) .wrongState []
      else
        let b := (s.takeRecord src).setPortMode p enable lanes
        succeed b [(b.port p).state.code, byte (b.port p).lanes.count] := by
  simp only [portSet, takeRecord_holdsLease, if_pos (decide_eq_true holder), readPort_byte, readFlag_flagByte,
    readLanes_count, State.takeRecord_port]

/-- PORT_SET at an OFF port sets the lanes, and ENABLE makes the port SEEKING (R3, R15). -/
theorem setPortMode_off {enable : Bool} {lanes : Lanes} (off : (s.port p).state = .off) :
    let b := s.setPortMode p enable lanes
    SameBut s b [.ports] ∧ OnlyPort s b p ∧
    b.port p =
      if enable then { s.port p with state := .seeking, lanes, aligned := false, reception := none }
      else { s.port p with lanes } := by
  have first := modifyPort_frame s p fun x => { x with lanes }
  have only := modifyPort_onlyPort s p fun x => { x with lanes }
  cases enable
  · have e : s.setPortMode p false lanes = s.modifyPort p fun x => { x with lanes } := by
      simp [State.setPortMode, State.disablePort, off]
    rw [e]
    exact ⟨first, only, by simp⟩
  · have e : s.setPortMode p true lanes = (s.modifyPort p fun x => { x with lanes }).modifyPort p fun x =>
        { x with state := .seeking, aligned := false, reception := none } := by
      simp [State.setPortMode, State.enablePort, off]
    rw [e]
    exact ⟨first.trans (modifyPort_frame _ p _), only.trans (modifyPort_onlyPort _ p _), by simp⟩

/-- ENABLE leaves a port that is not OFF as it is (R3). -/
theorem setPortMode_enabled {lanes : Lanes} (on : (s.port p).state ≠ .off) : s.setPortMode p true lanes = s := by
  rw [State.setPortMode, if_neg on, if_pos rfl, State.enablePort]
  split
  · next h => exact absurd h on
  · rfl

/-- A port that is to be OFF, before its routes are visited (R8). -/
def State.portQuiet (s : State) (p : Fin 4) : State :=
  (s.cutReception p).modifyPort p fun x => { x with aligned := false }

/-- DISABLE at a port that is not OFF (R8, R15). -/
theorem setPortMode_disable {lanes : Lanes} (on : (s.port p).state ≠ .off) :
    s.setPortMode p false lanes =
      ((s.portQuiet p).visitRoutes p .portOff).modifyPort p fun x => { x with state := .off } := by
  rw [State.setPortMode, if_neg on, if_neg (by decide), State.disablePort]
  split
  · next h => exact absurd h on
  · rfl

/-- Everything that DISABLE does at a port that is not OFF (R8, R15). -/
theorem setPortMode_disabled {lanes : Lanes} (on : (s.port p).state ≠ .off) :
    let b := s.setPortMode p false lanes
    SameBut s b [.ports, .routes, .pool, .queue, .notices] ∧ OnlyPort s b p ∧
    b.port p =
      { s.port p with
        state := .off
        aligned := false
        reception := none
        counters :=
          { (s.port p).counters with
            cutPackets := if (s.port p).reception = none then (s.port p).counters.cutPackets
              else bump (s.port p).counters.cutPackets } } ∧
    PortVisited s b p .portOff [] := by
  dsimp only
  rw [setPortMode_disable on]
  have quiet : SameBut s (s.portQuiet p) [.ports] := (cutReception_frame s p).trans (modifyPort_frame _ p _)
  have visited := visitRoutes_frame (s.portQuiet p) p .portOff
  have off := modifyPort_frame ((s.portQuiet p).visitRoutes p .portOff) p fun x => { x with state := .off }
  refine ⟨((quiet.mono (by decide)).trans (visited.mono (by decide))).trans (off.mono (by decide)),
    (((cutReception_onlyPort s p).trans (modifyPort_onlyPort _ p _)).trans (visited.onlyPort p)).trans
      (modifyPort_onlyPort _ p _), ?_, ?_⟩
  · rw [State.port_modifyPort_self, visited.port]
    simp [State.portQuiet, State.port_cutReception]
  · exact ((visitRoutes_spec (s.portQuiet p) p .portOff).congr_left quiet.routes quiet.queue quiet.pool
      quiet.notices).congr_right off.routes off.queue off.pool off.notices

end PortSet

/-- Settles O32: the refusals in their order, then the three ways of `setPortMode`. -/
theorem portSetEnablesAndDisables : Obligations.PortSetEnablesAndDisables := by
  refine ⟨fun s src record serves => ⟨fun other => ?_, fun holder length => ?_, fun holder _ ⟨p, e, l, h, out⟩ => ?_⟩,
    fun s src record p enable lanes serves holder arguments => ?_⟩
  · rw [Refuses, exec_portSet serves, answerOf, portSet_noLease other]; rfl
  · rw [Refuses, exec_portSet serves, answerOf, portSet_badLength holder length]; rfl
  · rw [Refuses, exec_portSet serves, answerOf, h, portSet_badArg holder out]; rfl
  · dsimp only
    have answer : exec .portSet s = _ := exec_portSet serves
    rw [answerOf, arguments, portSet_eq holder] at answer
    have port : (s.takeRecord src).port p = s.port p := s.takeRecord_port src p
    refine ⟨fun off => ?_, fun on differ => ?_, fun on same enabled => ?_, fun on same disabled => ?_⟩
    · rw [if_neg (fun h => h.2 off)] at answer
      obtain ⟨frame, only, set⟩ := setPortMode_off (enable := enable) (lanes := lanes) (port ▸ off)
      refine ⟨_, ?_, frame, fun k hk => (only k hk).trans (s.takeRecord_port src k), by rw [set, port]⟩
      rw [answer]
      simp only [succeed, set]
      cases enable <;> simp [off, PortState.code, flagByte]
    · rw [Refuses, answer, if_pos ⟨Ne.symm differ, on⟩]; rfl
    · subst same enabled
      rw [if_neg (fun h => h.1 rfl), setPortMode_enabled (port ▸ on)] at answer
      rw [answer]
      simp only [succeed, port]
    · subst same disabled
      rw [if_neg (fun h => h.1 rfl)] at answer
      obtain ⟨frame, only, set, visited⟩ := setPortMode_disabled (lanes := (s.port p).lanes) (port ▸ on)
      have taken := takeRecord_frame s src
      refine ⟨_, ?_, frame, fun k hk => (only k hk).trans (s.takeRecord_port src k), by rw [set, port],
        visited.congr_left (s.takeRecord_routes src) (s.takeRecord_queue src) (s.takeRecord_pool src)
          (s.takeRecord_notices src)⟩
      rw [answer]
      simp only [succeed, set, port, PortState.code]

end Sys2Proof.Machine
end

section
/-! SUPPORT. The laws of the ports, the receive logic, the lease and the notice queue (R1, R144, R157, R166).
`BlocksKept s t` says that `t` meets each of the four laws that `s` meets. It is shown once for each operation and put
together along the operations' own composition; a step that leaves a block as it was keeps that block's law by the
operation's frame. -/

namespace Sys2Proof.Machine

-- One theorem after another, as in the model's tests.
set_option Elab.async false

/-- `t` meets each of the four block laws that `s` meets. -/
structure BlocksKept (s t : State) : Prop where
  ports : (∀ p, (s.port p).Law) → ∀ p, (t.port p).Law
  receiver : s.receiver.Law → t.receiver.Law
  lease : s.lease.Law → t.lease.Law
  notices : s.notices.Law → t.notices.Law

theorem BlocksKept.refl (s : State) : BlocksKept s s := ⟨id, id, id, id⟩

theorem BlocksKept.trans {s t u : State} (h : BlocksKept s t) (k : BlocksKept t u) : BlocksKept s u :=
  ⟨k.ports ∘ h.ports, k.receiver ∘ h.receiver, k.lease ∘ h.lease, k.notices ∘ h.notices⟩

/-- A law is kept where its block is left as it was; for a block that changes the caller shows it. -/
theorem BlocksKept.of_frame {s t : State} {changed : List Piece} (h : SameBut s t changed)
    (ports : .ports ∈ changed → (∀ p, (s.port p).Law) → ∀ p, (t.port p).Law := by
      simp [Source.piece])
    (receiver : .receiver ∈ changed → s.receiver.Law → t.receiver.Law := by simp [Source.piece])
    (lease : .lease ∈ changed → s.lease.Law → t.lease.Law := by simp [Source.piece])
    (notices : .notices ∈ changed → s.notices.Law → t.notices.Law := by simp [Source.piece]) :
    BlocksKept s t where
  ports law p := by
    by_cases hc : Piece.ports ∈ changed
    · exact ports hc law p
    · rw [h.port p hc]; exact law p
  receiver law := by
    by_cases hc : Piece.receiver ∈ changed
    · exact receiver hc law
    · rwa [h.receiver hc]
  lease law := by
    by_cases hc : Piece.lease ∈ changed
    · exact lease hc law
    · rwa [h.lease hc]
  notices law := by
    by_cases hc : Piece.notices ∈ changed
    · exact notices hc law
    · rwa [h.notices hc]

/-! ## The notice queue -/

/-- A queue whose notices are some of another's, in their order and with their sequences, keeps its law. -/
theorem NoticeQueue.Law.sublist {q q' : NoticeQueue} (law : q.Law)
    (held : (q'.held.map fun n => n.sequence).Sublist (q.held.map fun n => n.sequence))
    (next : q'.nextSequence = q.nextSequence) (lost : q'.lost = q.lost) : q'.Law := by
  obtain ⟨room, order, range, below, next1, next2, lost'⟩ := law
  have mem : ∀ n ∈ q'.held, ∃ m ∈ q.held, m.sequence = n.sequence := fun n hn =>
    List.mem_map.1 (held.subset (List.mem_map_of_mem hn))
  refine ⟨by have := held.length_le; simp only [List.length_map] at this; omega, order.sublist held, fun n hn => ?_,
    fun h n hn => ?_, next ▸ next1, next ▸ next2, lost ▸ lost'⟩
  · obtain ⟨m, hm, e⟩ := mem n hn
    exact e ▸ range m hm
  · obtain ⟨m, hm, e⟩ := mem n hn
    rw [next, ← e]
    exact below (next ▸ h) m hm

theorem NoticeQueue.Law.accept {q : NoticeQueue} (law : q.Law) (hasRoom : q.hasRoom = true) (info : NoticeInfo) :
    (q.accept info).Law := by
  obtain ⟨room, order, range, below, next1, next2, lost⟩ := law
  simp only [NoticeQueue.hasRoom, Bool.and_eq_true, Bool.or_eq_true, decide_eq_true_eq, bne_iff_ne,
    List.isEmpty_iff] at hasRoom
  obtain ⟨few, fresh⟩ := hasRoom
  have older : ∀ n ∈ q.held, n.sequence < q.nextSequence := by
    rcases fresh with fresh | fresh
    · exact below fresh
    · simp [fresh]
  have next : next16 q.nextSequence = 1 ∨ next16 q.nextSequence = q.nextSequence + 1 := by
    unfold next16; split <;> simp
  have bound : next16 q.nextSequence ≤ 65535 := by
    unfold next16
    split
    · decide
    · simp only [Config.max16] at *; omega
  refine ⟨by simpa [NoticeQueue.accept] using few, ?_, fun n hn => ?_, ?_,
    by simp only [NoticeQueue.accept]; omega, bound, lost⟩
  · simpa [NoticeQueue.accept, List.pairwise_append] using ⟨order, older⟩
  · rcases List.mem_append.1 hn with hn | hn
    · exact range n hn
    · rw [List.mem_singleton.1 hn]; exact ⟨next1, next2⟩
  · intro h n hn
    simp only [NoticeQueue.accept, List.mem_append, List.mem_singleton] at h hn ⊢
    rcases hn with hn | rfl
    · have := older n hn; omega
    · simp only; omega

theorem NoticeQueue.Law.raise {q : NoticeQueue} (law : q.Law) (info : NoticeInfo) : (q.raise info).Law := by
  unfold NoticeQueue.raise
  split
  · exact law
  · split
    · next room => exact law.accept room info
    · obtain ⟨room, order, range, below, next1, next2, lost⟩ := law
      exact ⟨room, order, range, below, next1, next2, by dsimp only [Config.max16]; split <;> omega⟩

theorem NoticeQueue.Law.raiseAll {q : NoticeQueue} (law : q.Law) (infos : List NoticeInfo) :
    (q.raiseAll infos).Law := by
  induction infos generalizing q with
  | nil => exact law
  | cons info rest ih => exact ih (law.raise info)

theorem NoticeQueue.Law.markSent {q : NoticeQueue} (law : q.Law) (sequence : Nat) : (q.markSent sequence).Law := by
  refine law.sublist ?_ rfl rfl
  have same : ∀ n : Notice, (if n.sequence = sequence then { n with sent := true } else n).sequence = n.sequence :=
    fun n => by split <;> rfl
  simp [NoticeQueue.markSent, Function.comp_def, same]

theorem NoticeQueue.Law.replay {q : NoticeQueue} (law : q.Law) : q.replay.Law :=
  law.sublist (by simp [NoticeQueue.replay, Function.comp_def]) rfl rfl

theorem NoticeQueue.Law.drop {q : NoticeQueue} (law : q.Law) (n : Nat) : { q with held := q.held.drop n }.Law :=
  law.sublist ((List.drop_sublist n q.held).map _) rfl rfl

theorem NoticeQueue.Law.deliverLost {q : NoticeQueue} (law : q.Law) : q.deliverLost.Law := by
  unfold NoticeQueue.deliverLost
  split
  · next h =>
    obtain ⟨hasRoom, -⟩ := Bool.and_eq_true _ _ ▸ h
    obtain ⟨room, order, range, below, next1, next2, -⟩ := law.accept hasRoom (.noticesLost q.lost)
    exact ⟨room, order, range, below, next1, next2, Nat.zero_le _⟩
  · exact law

theorem noticeReset_law : NoticeQueue.reset.Law := by
  refine ⟨?_, ?_, ?_, ?_, ?_, ?_, ?_⟩ <;> simp [NoticeQueue.reset]

/-! ## One port -/

/-- Without a packet in reception the law of a port is that OFF is not aligned (R1). -/
theorem Port.Law.of_none {x : Port} (none : x.reception = none) (off : x.state = .off → x.aligned = false) : x.Law :=
  ⟨off, fun _ => none, fun y h => by rw [none] at h; cases h⟩

/-- With a packet in reception the port is aligned and, outside ACTIVE, the packet is discarded (R1, R4). -/
theorem Port.Law.of_some {x : Port} {y : Reception} (held : x.reception = some y) (on : x.state ≠ .off)
    (aligned : x.aligned = true) (inactive : x.state ≠ .active → y.disposition = .headerError)
    (fields : y.header = none ↔ y.disposition = .headerError) : x.Law := by
  refine ⟨fun h => absurd h on, fun h => ?_, fun z hz => ?_⟩
  · rw [aligned] at h; cases h
  · obtain rfl : y = z := Option.some.inj (held.symm.trans hz)
    exact ⟨inactive, fields⟩

/-- Alignment achieved at a port that is not OFF (R2). -/
theorem Port.Law.align {x : Port} (law : x.Law) (on : x.state ≠ .off) : { x with aligned := true }.Law := by
  obtain ⟨-, -, packet⟩ := law
  refine ⟨fun h => absurd h on, ?_, packet⟩
  intro h
  cases h

/-- A port whose packet keeps its header and its disposition keeps the law. -/
theorem Port.Law.of_reception {x : Port} (law : x.Law) (f : Reception → Reception)
    (header : ∀ y, (f y).header = y.header) (disposition : ∀ y, (f y).disposition = y.disposition) :
    { x with reception := x.reception.map f }.Law := by
  obtain ⟨off, quiet, packet⟩ := law
  refine ⟨off, fun h => by simp [quiet h], fun y hy => ?_⟩
  obtain ⟨z, hz, rfl⟩ := Option.map_eq_some_iff.1 hy
  rw [header, disposition]
  exact packet z hz

/-- ROUTE_DISABLE makes a TO_ROUTE packet UNROUTED, and both have their header fields (R14). -/
theorem Port.Law.unroute {x : Port} (law : x.Law) (r : Fin 64) :
    { x with reception := x.reception.map (Reception.unroute · r) }.Law := by
  obtain ⟨off, quiet, packet⟩ := law
  refine ⟨off, fun h => by simp [quiet h], fun y hy => ?_⟩
  obtain ⟨z, hz, rfl⟩ := Option.map_eq_some_iff.1 hy
  obtain ⟨inactive, fields⟩ := packet z hz
  unfold Reception.unroute
  split
  · next h =>
    obtain ⟨routed, -⟩ := h
    rw [routed] at inactive fields
    exact ⟨fun h => absurd (inactive h) (by decide), by simpa using fields⟩
  · exact ⟨inactive, fields⟩

/-! ## The lease -/

theorem restartLease_lease (s : State) (src : Source) :
    (s.restartLease src).lease =
      if s.lease.holder = some src then { s.lease with timer := .running s.lease.time } else s.lease := by
  unfold State.restartLease; split <;> rfl

/-- The restart at the end of an execution keeps the law of the lease (R157). -/
theorem Lease.Law.restart {s : State} (law : s.lease.Law) (src : Source) : (s.restartLease src).lease.Law := by
  obtain ⟨low, high, none, held⟩ := law
  rw [restartLease_lease]
  split
  · next h => exact ⟨low, high, fun h' => absurd (h.symm.trans h') (by simp), fun _ => rfl⟩
  · exact ⟨low, high, none, held⟩

/-- A lease that is granted runs for its time (R158). -/
theorem Lease.Law.start {lease : Lease} (law : lease.Law) (src : Source) :
    { lease with holder := some src, timer := .running lease.time }.Law := by
  obtain ⟨low, high, -, -⟩ := law
  exact ⟨low, high, fun h => absurd h (by simp), fun _ => rfl⟩

/-- A lease that ends stops its timer (R159, R160). -/
theorem Lease.Law.stop {lease : Lease} (law : lease.Law) : { lease with holder := none, timer := .stopped }.Law := by
  obtain ⟨low, high, -, -⟩ := law
  exact ⟨low, high, fun _ => rfl, fun h => absurd rfl h⟩

theorem leaseReset_law : Lease.reset.Law := by
  refine ⟨?_, ?_, ?_, ?_⟩ <;> simp [Lease.reset, Config.defaultLeaseTime]

/-! ## Updates -/

section Updates
variable (s : State)

theorem BlocksKept.modifyPort (p : Fin 4) (f : Port → Port) (h : (s.port p).Law → (f (s.port p)).Law) :
    BlocksKept s (s.modifyPort p f) :=
  .of_frame (modifyPort_frame s p f) (ports := fun _ law k => by
    rw [s.port_modifyPort]
    split
    · exact h (law p)
    · exact law k)

theorem BlocksKept.countPort (p : Fin 4) (f : PortCounters → PortCounters) : BlocksKept s (s.countPort p f) :=
  .modifyPort s p _ id

theorem BlocksKept.raise (info : NoticeInfo) : BlocksKept s (s.raise info) :=
  .of_frame (raise_frame s info) (notices := fun _ law => law.raise info)

theorem BlocksKept.modifyRoute (r : Fin 64) (f : Route → Route) : BlocksKept s (s.modifyRoute r f) :=
  .of_frame (modifyRoute_frame s r f)

theorem BlocksKept.countRoute (r : Fin 64) (f : RouteCounters → RouteCounters) : BlocksKept s (s.countRoute r f) :=
  .of_frame (countRoute_frame s r f)

theorem BlocksKept.countSource (src : Source) (f : SourceCounters → SourceCounters) :
    BlocksKept s (s.countSource src f) := by
  cases src <;> exact .of_frame (countSource_frame s _ f)

theorem BlocksKept.modifySource (src : Source) (f : SourceState → SourceState) :
    BlocksKept s (s.modifySource src f) := by
  cases src <;> exact .of_frame (modifySource_frame s _ f)

theorem BlocksKept.finish : BlocksKept s s.finish := .of_frame (finish_frame s)

end Updates

/-! ## Gates and the ends of frames -/

section Frames
variable (s : State) (r : Fin 64)

theorem BlocksKept.shutGate (reason : ShutReason) (frame : Option Nat) :
    BlocksKept s (s.shutGate r reason frame) := by
  unfold State.shutGate
  split
  all_goals first
    | exact .refl s
    | exact (BlocksKept.modifyRoute s r _).trans (.raise _ _)

theorem BlocksKept.frameEndStep (frame : Nat) : BlocksKept s (s.frameEndStep r frame) := by
  unfold State.frameEndStep
  split
  · exact .shutGate s r _ _
  · exact .shutGate s r _ _
  · exact .refl s

theorem BlocksKept.fireHoldPoint (frame : Nat) (h : HoldPoint) : BlocksKept s (s.fireHoldPoint r frame h) :=
  (BlocksKept.modifyRoute s r _).trans (.raise _ _)

theorem BlocksKept.endIngressFrame (reason : AbortReason) : BlocksKept s (s.endIngressFrame r reason) :=
  .of_frame (endIngressFrame_frame s r reason) (notices := fun _ law => by
    obtain ⟨-, -, -, -, -, raised⟩ := endIngressFrame_spec s r reason
    rw [raised]
    exact law.raiseAll _)

theorem BlocksKept.abort (reason : AbortReason) : BlocksKept s (s.abort r reason) := by
  rcases h : (s.route r).assembly with _ | ⟨frame, line⟩ | _
  · simpa [State.abort, h] using BlocksKept.refl s
  · simpa [State.endIngressFrame, h] using BlocksKept.endIngressFrame s r reason
  · simpa [State.abort, h] using BlocksKept.refl s

theorem BlocksKept.visitRoutes (p : Fin 4) (reason : AbortReason) : BlocksKept s (s.visitRoutes p reason) :=
  .of_frame (visitRoutes_frame s p reason) (notices := fun _ law => by
    obtain ⟨-, -, -, -, raised⟩ := visitRoutes_spec s p reason
    rw [raised]
    exact law.raiseAll _)

end Frames

/-! ## Alignment and headers -/

section Headers
variable (s : State) (p : Fin 4) (r : Fin 64)

/-- A change of one port keeps the laws when that port's law is kept. -/
theorem BlocksKept.of_port {s t : State} {p : Fin 4} (frame : SameBut s t [.ports]) (only : OnlyPort s t p)
    (law : (s.port p).Law → (t.port p).Law) : BlocksKept s t :=
  .of_frame frame (ports := fun _ all k => by
    by_cases hk : k = p
    · subst hk; exact law (all k)
    · rw [only k hk]; exact all k)

theorem BlocksKept.cutReception : BlocksKept s (s.cutReception p) :=
  .of_port (cutReception_frame s p) (cutReception_onlyPort s p) fun law => by
    obtain ⟨off, -, -⟩ := law
    rw [s.port_cutReception p]
    exact .of_none rfl off

theorem BlocksKept.alignmentLost : BlocksKept s (s.alignmentLost p) := by
  by_cases active : (s.port p).state = .active
  · rw [alignmentLost_active s p active]
    refine ((BlocksKept.of_port (portDown_frame s p) (portDown_onlyPort s p) fun _ => ?_).trans
      (.visitRoutes _ p _)).trans (.raise _ _)
    rw [s.port_portDown p]
    exact .of_none rfl fun h => by cases h
  · have e : s.alignmentLost p = s.modifyPort p fun x => { x with aligned := false, reception := none } := by
      unfold State.alignmentLost
      split
      · next h => exact absurd h active
      · rfl
    rw [e]
    exact .modifyPort s p _ fun _ => .of_none rfl fun _ => rfl

theorem BlocksKept.testLong (header : PacketHeader) : BlocksKept s (s.testLong p r header) := by
  unfold State.testLong
  repeat' split
  · exact (BlocksKept.modifyPort s p _ fun law => law.of_reception (fun y => { y with long := true }) (fun _ => rfl)
      fun _ => rfl).trans (.countPort _ p _)
  · exact .refl s
  · exact .refl s

theorem BlocksKept.allocate (header : PacketHeader) : BlocksKept s (s.allocate p r header) := by
  unfold State.allocate
  dsimp only
  split
  · exact (((BlocksKept.of_frame (setLine_frame s r _)).trans (.of_frame (takeSegments_frame _ r _))).trans
      (.of_frame (takeDescriptors_frame _ _))).trans (.testLong _ p r header)
  · exact (BlocksKept.abort s r _).trans (.countRoute _ r _)

theorem BlocksKept.filterPacket (header : PacketHeader) : BlocksKept s (s.filterPacket p r header) := by
  unfold State.filterPacket
  dsimp only
  split
  · exact .countRoute s r _
  · exact .allocate s p r header

theorem BlocksKept.countLine (header : PacketHeader) (frame : OpenFrame) :
    BlocksKept s (s.countLine p r header frame) := by
  unfold State.countLine
  repeat' split
  · exact (BlocksKept.of_frame (modifyFrame_frame s r _)).trans (.filterPacket _ p r header)
  · exact (BlocksKept.of_frame (modifyFrame_frame s r _)).trans (.countRoute _ r _)
  · exact .filterPacket s p r header

theorem BlocksKept.assembleHeader (header : PacketHeader) (frame : OpenFrame) :
    BlocksKept s (s.assembleHeader p r header frame) := by
  unfold State.assembleHeader
  split
  · next h _ =>
    refine (BlocksKept.fireHoldPoint s r frame.number h).trans ?_
    dsimp only
    split
    · exact (BlocksKept.abort _ r _).trans (.countRoute _ r _)
    · exact (BlocksKept.of_frame (forceGate_frame _ r)).trans (.countLine _ p r header frame)
  · exact .countLine s p r header frame

theorem BlocksKept.routeHeader (header : PacketHeader) : BlocksKept s (s.routeHeader p r header) := by
  unfold State.routeHeader
  refine (BlocksKept.of_frame (stopIdleTimer_frame s r)).trans ?_
  dsimp only
  repeat' split
  · exact .refl _
  · exact .assembleHeader _ p r header _
  · exact .countRoute _ r _
  · exact .countRoute _ r _

/-- The port of a packet that begins is ACTIVE and aligned, and the packet has its header fields (R4, R10). -/
theorem BlocksKept.begun (f : PacketHeader) {d : Disposition} (aligned : (s.port p).aligned = true)
    (good : d ≠ .headerError) : BlocksKept s (s.begun p f d) := by
  refine .of_frame (begun_frame s p f d) (ports := fun _ law k => ?_) (notices := fun _ law => ?_)
  · by_cases hk : k = p
    · subst hk
      rw [s.port_begun k f d]
      exact .of_some rfl (fun h => by cases h) aligned (fun h => absurd rfl h) (by simp [newReception, good])
    · rw [begun_onlyPort s p f d k hk]
      exact law k
  · rw [s.begun_notices p f d]
    exact law.raiseAll _

theorem BlocksKept.headerArrives (header : Header) (aligned : (s.port p).aligned = true)
    (on : (s.port p).state ≠ .off) : BlocksKept s (s.headerArrives p header) := by
  by_cases passes : headerPasses header = true
  · rw [headerArrives_eq passes]
    dsimp only
    repeat' split
    · exact (BlocksKept.begun s p _ aligned (by decide)).trans (.countPort _ p _)
    · exact (BlocksKept.begun s p _ aligned (by decide)).trans (.countPort _ p _)
    · exact (BlocksKept.begun s p _ aligned (by decide)).trans (.routeHeader _ p _ _)
  · rw [State.headerArrives, if_neg passes]
    refine (BlocksKept.modifyPort s p _ fun _ => ?_).trans (.countPort _ p _)
    exact .of_some rfl on aligned (fun _ => rfl) (by simp [newReception])

/-- Bytes leave the header and the disposition of the packet in reception (R12). -/
theorem BlocksKept.bytesArrive (bytes : List Byte) : BlocksKept s (s.bytesArrive p bytes) := by
  rcases held : (s.port p).reception with _ | x
  · rw [State.bytesArrive, held]
    exact .refl s
  · rw [bytesArrive_eq held]
    have frame : SameBut s (s.bytesAtRoute p x bytes) [.routes] := bytesAtRoute_frame
    refine (BlocksKept.of_frame frame).trans (.modifyPort _ p _ fun law => ?_)
    have whole := law.of_reception (·.deliver bytes) (fun _ => rfl) fun _ => rfl
    rw [frame.port, held] at whole
    rw [frame.port]
    exact whole

end Headers

/-! ## The ends of packets -/

section Ends
variable (s : State) (p : Fin 4) (r : Fin 64)

theorem BlocksKept.dropPacket : BlocksKept s (s.dropPacket p) :=
  .modifyPort s p _ fun ⟨off, _, _⟩ => .of_none rfl off

theorem BlocksKept.holdOff : BlocksKept s (s.holdOff r) := .of_frame (holdOff_frame s r)

theorem BlocksKept.refuseFrame (mark : OpeningMark) : BlocksKept s (s.refuseFrame r mark) := by
  unfold State.refuseFrame
  dsimp only
  split
  · exact .modifyRoute s r _
  · exact (BlocksKept.modifyRoute s r _).trans (.raise _ _)

theorem BlocksKept.tryFrame (mark : OpeningMark) (fired : Option HoldPoint) :
    BlocksKept s (s.tryFrame r mark fired) := by
  unfold State.tryFrame
  repeat' split
  · exact (BlocksKept.shutGate s r _ _).trans (.holdOff _ r)
  · exact (BlocksKept.of_frame (admit_frame s r mark)).trans (.of_frame (forceGate_frame _ r))
  · exact .refuseFrame s r mark
  · exact .of_frame (admit_frame s r mark)
  · exact .refuseFrame s r mark

theorem BlocksKept.meetGate (mark : OpeningMark) (fired : Option HoldPoint) :
    BlocksKept s (s.meetGate r mark fired) := by
  unfold State.meetGate
  split
  · exact .tryFrame s r mark fired
  · exact .tryFrame s r mark fired
  all_goals exact .holdOff s r

theorem BlocksKept.fire (frame : Nat) (fired : Option HoldPoint) : BlocksKept s (s.fire r frame fired) := by
  cases fired with
  | none => exact .refl s
  | some h => exact .fireHoldPoint s r frame h

theorem BlocksKept.openingMark (mark : OpeningMark) : BlocksKept s (s.openingMark r mark) :=
  ((BlocksKept.fire s r _ _).trans (.endIngressFrame _ r _)).trans (.meetGate _ r mark _)

theorem BlocksKept.forward (frame : OpenFrame) (line : LineInAssembly) (damaged long : Bool) :
    BlocksKept s (s.forward r frame line damaged long) := .of_frame (forward_frame s r frame line damaged long)

theorem BlocksKept.applyPolicy (frame : OpenFrame) (line : LineInAssembly) (long : Bool) :
    BlocksKept s (s.applyPolicy r frame line long) := by
  unfold State.applyPolicy
  split
  · exact .abort s r _
  · exact (BlocksKept.forward s r _ _ _ _).trans (.countRoute _ r _)

theorem BlocksKept.damagedLine (frame : OpenFrame) (line : LineInAssembly) (long : Bool) :
    BlocksKept s (s.damagedLine r frame line long) := by
  unfold State.damagedLine
  split
  · next h _ =>
    refine (BlocksKept.fireHoldPoint s r frame.number h).trans ?_
    dsimp only
    split
    · exact .abort _ r _
    · exact (BlocksKept.of_frame (forceGate_frame _ r)).trans (.applyPolicy _ r frame line long)
  · exact .applyPolicy s r frame line long

theorem BlocksKept.packetEnd (damaged long : Bool) : BlocksKept s (s.packetEnd r damaged long) := by
  unfold State.packetEnd
  repeat' split
  · exact .damagedLine s r _ _ long
  · exact .forward s r _ _ _ _
  · exact .refl s

theorem BlocksKept.closeFrame (frame : OpenFrame) (number : Nat) : BlocksKept s (s.closeFrame r frame number) := by
  unfold State.closeFrame
  exact (((((BlocksKept.of_frame (freeLine_frame s r)).trans (.of_frame (enqueue_frame _ r _ _))).trans
    (.countRoute _ r _)).trans (.of_frame (setAssembly_frame _ r _))).trans
    (.of_frame (stopIdleTimer_frame _ r))).trans (.frameEndStep _ r _)

theorem BlocksKept.closingMark (number : Nat) : BlocksKept s (s.closingMark r number) := by
  unfold State.closingMark
  split
  · exact .closeFrame s r _ number
  · exact ((BlocksKept.of_frame (setAssembly_frame s r _)).trans (.of_frame (stopIdleTimer_frame _ r))).trans
      (.countRoute _ r _)
  · exact .countRoute s r _

theorem BlocksKept.endAtRoute (x : Reception) (header : PacketHeader) :
    BlocksKept s (s.endAtRoute p x header) := by
  unfold State.endAtRoute
  dsimp only
  refine BlocksKept.trans ?_ (.of_frame (startIdleTimer_frame _ _))
  repeat' split
  · exact .openingMark s _ _
  · exact .countPort s p _
  · exact .closingMark s _ _
  · exact .countPort s p _
  · exact .packetEnd s _ _ _
  · exact (BlocksKept.countPort s p _).trans (.packetEnd _ _ _ _)

theorem BlocksKept.packetEnds : BlocksKept s (s.packetEnds p) := by
  unfold State.packetEnds
  split
  · refine (BlocksKept.dropPacket s p).trans ?_
    dsimp only
    repeat' split
    · exact .endAtRoute _ p _ _
    · exact .countPort _ p _
    · exact .refl _
    · exact .refl _
  · exact .refl s

end Ends

/-! ## The control port -/

section ControlPort
variable (s : State)

/-- In IDLE with the gap timer stopped the receive logic meets its law (R144). -/
theorem Receiver.Law.of_idle {x : Receiver} (idle : x.state = .idle) (stopped : x.gapTimer = .stopped) : x.Law :=
  ⟨by simp [idle, stopped, Timer.isRunning], fun h => by rw [idle] at h; cases h⟩

theorem BlocksKept.modifyReceiver (f : Receiver → Receiver) (law : s.receiver.Law → (f s.receiver).Law) :
    BlocksKept s (s.modifyReceiver f) := ⟨id, law, id, id⟩

theorem BlocksKept.endReception : BlocksKept s s.endReception :=
  .modifyReceiver s _ fun _ => .of_idle rfl rfl

theorem BlocksKept.discardFraming : BlocksKept s s.discardFraming :=
  (BlocksKept.endReception s).trans (.countSource _ _ _)

theorem BlocksKept.judgeRecord (src : Source) (covered check : List Byte) :
    BlocksKept s (s.judgeRecord src covered check) := by
  cases src <;> exact .of_frame (judgeRecord_frame s _ covered check)

theorem BlocksKept.idleCharacter (character : Byte) (stopBit : Bool) :
    BlocksKept s (s.idleCharacter character stopBit) := by
  unfold State.idleCharacter
  split
  · exact .modifyReceiver s _ fun _ => ⟨by simp [Timer.isRunning], fun _ => rfl⟩
  · exact .countSource s _ _

/-- A good character keeps the record so far in step with the position (R146 to R148). -/
theorem BlocksKept.recordCharacter (character : Byte) (inRecord : s.receiver.state = .inRecord) :
    BlocksKept s (s.recordCharacter character) := by
  unfold State.recordCharacter
  dsimp only
  split
  · next position =>
    split
    · next range =>
      obtain ⟨low, high⟩ := range
      refine .modifyReceiver s _ fun ⟨_, law⟩ => ⟨by simp [Timer.isRunning, inRecord], fun _ => ?_⟩
      have empty := law inRecord
      simp only [position] at empty
      exact ⟨_, rfl, low, high, by simp, by simp only [empty, List.nil_append, List.length_singleton]; omega⟩
    · exact .discardFraming s
  · next position =>
    refine .modifyReceiver s _ fun ⟨_, law⟩ => ⟨by simp [Timer.isRunning, inRecord], fun _ => ?_⟩
    have sofar := law inRecord
    simp only [position] at sofar
    obtain ⟨n, length, low, high, first, last⟩ := sofar
    simp only [length, Option.getD_some, List.length_append, List.length_singleton]
    by_cases full : s.receiver.record.length + 1 = n + 1
    · rw [if_pos full]
      exact ⟨n, rfl, low, high, by omega, by omega⟩
    · rw [if_neg full]
      exact ⟨n, rfl, low, high, by omega, by omega⟩
  · next position =>
    split
    · exact (BlocksKept.endReception s).trans (.judgeRecord _ _ _ _)
    · next more =>
      refine .modifyReceiver s _ fun ⟨_, law⟩ => ⟨by simp [Timer.isRunning, inRecord], fun _ => ?_⟩
      have sofar := law inRecord
      simp only [position] at sofar
      obtain ⟨n, length, low, high, first, last⟩ := sofar
      simp only [length, Option.getD_some, List.length_append, List.length_singleton] at more
      simp only [position, length, List.length_append, List.length_singleton]
      exact ⟨n, rfl, low, high, by omega, by omega⟩

theorem BlocksKept.character (character : Byte) (stopBit : Bool) :
    BlocksKept s (s.character character stopBit) := by
  unfold State.character
  split
  · exact .idleCharacter s character stopBit
  · next inRecord =>
    split
    · exact .recordCharacter s character inRecord
    · exact .discardFraming s

end ControlPort

/-! ## Part resets -/

section Reset
variable (s : State)

/-- A part reset leaves every block at its reset value, and RESET_DONE in the queue (R164). -/
theorem BlocksKept.partReset (cause : ResetCause) (epoch : Nat) (straps : Straps) :
    BlocksKept s (s.partReset cause epoch straps) where
  ports _ p := by
    have e : (s.partReset cause epoch straps).port p = Port.reset := by
      simp [State.partReset, State.blank, State.port]
    rw [e]
    exact .of_none rfl fun _ => rfl
  receiver _ := .of_idle rfl rfl
  lease _ := leaseReset_law
  notices _ := noticeReset_law.raise _

theorem BlocksKept.resetAfterReply (src : Source) (straps : Straps) :
    BlocksKept s (s.resetAfterReply src straps) := by
  unfold State.resetAfterReply
  repeat' split
  · exact .partReset s _ _ _
  · exact .refl s
  · exact .refl s

theorem BlocksKept.holdInReset (line : ResetLine) : BlocksKept s (s.holdInReset line) where
  ports law p := by
    have e : (s.holdInReset line).port p = { s.port p with reception := none } := by
      simp [State.holdInReset, State.port]
    obtain ⟨off, -, -⟩ := law p
    rw [e]
    exact .of_none rfl off
  receiver _ := .of_idle rfl rfl
  lease := id
  notices := id

theorem BlocksKept.completePort (straps : Straps) : BlocksKept s (s.completePort straps) := by
  unfold State.completePort
  dsimp only
  split
  · exact .refl s
  · refine BlocksKept.trans ?_ (.resetAfterReply _ _ straps)
    exact ⟨id, id, id, id⟩
  · exact ⟨id, id, id, fun law => law.markSent _⟩

theorem BlocksKept.expireGrace (straps : Straps) : BlocksKept s (s.expireGrace straps) := by
  unfold State.expireGrace
  split
  · exact .partReset s _ _ _
  · exact .refl s

theorem BlocksKept.expireLease : BlocksKept s s.expireLease := by
  unfold State.expireLease
  split
  · refine (BlocksKept.trans ?_ (.countSource _ _ _)).trans (.raise _ _)
    exact ⟨id, id, Lease.Law.stop, id⟩
  · next none =>
    exact ⟨id, id, fun ⟨low, high, _, _⟩ => ⟨low, high, fun _ => rfl, fun h => absurd none h⟩, id⟩

end Reset

/-! ## The trunk -/

section Trunk
variable (s : State)

theorem BlocksKept.countTrunk (f : TrunkCounters → TrunkCounters) : BlocksKept s (s.countTrunk f) :=
  .of_frame (countTrunk_frame s f)

theorem BlocksKept.grant (count : Nat) : BlocksKept s (s.grant count) := ⟨id, id, id, id⟩

theorem BlocksKept.takeGrant (rest : List Byte) : BlocksKept s (s.takeGrant rest) := by
  unfold State.takeGrant
  repeat' split
  · exact .grant s _
  · exact .countTrunk s _
  · exact .countTrunk s _

theorem BlocksKept.takeRemote (rest : List Byte) : BlocksKept s (s.takeRemote rest) := by
  unfold State.takeRemote
  dsimp only
  repeat' split
  · exact .judgeRecord s _ _ _
  · exact .countSource s _ _
  · exact .countSource s _ _

theorem BlocksKept.acknowledge (rest : List Byte) : BlocksKept s (s.acknowledge rest) := by
  unfold State.acknowledge
  repeat' split
  · refine BlocksKept.trans ?_ (.raise _ _)
    exact ⟨id, id, id, id⟩
  · exact .refl s
  · exact .countTrunk s _
  · exact .countTrunk s _

theorem BlocksKept.loseSignal : BlocksKept s s.loseSignal :=
  (((BlocksKept.of_frame (dropLock_frame s)).trans (.of_frame (enterDown_frame _))).trans (.countTrunk _ _)).trans
    (.raise _ _)

theorem BlocksKept.recordSent : BlocksKept s s.recordSent := by
  unfold State.recordSent
  split
  · exact ⟨id, id, id, id⟩
  · exact .refl s

theorem BlocksKept.completeTrunk (straps : Straps) : BlocksKept s (s.completeTrunk straps) := by
  unfold State.completeTrunk
  dsimp only
  split
  · exact .refl s
  · refine BlocksKept.trans ?_ (.recordSent _)
    exact ⟨id, id, id, id⟩
  · refine BlocksKept.trans ?_ (.resetAfterReply _ _ straps)
    exact ⟨id, id, id, id⟩
  · exact ⟨id, id, id, fun law => law.markSent _⟩

theorem BlocksKept.expireStall : BlocksKept s s.expireStall := by
  refine BlocksKept.trans ?_ (.raise _ _)
  exact ⟨id, id, id, id⟩

theorem BlocksKept.haltLink : BlocksKept s s.haltLink := by
  unfold State.haltLink
  dsimp only
  refine (BlocksKept.of_frame (dropLock_frame s)).trans ((BlocksKept.of_frame (enterHalted_frame _)).trans ?_)
  split
  · exact .refl _
  · exact .countTrunk _ _

end Trunk

/-! ## Executions -/

/-- A command keeps the laws, with the lease taken after the restart that ends every execution: LEASE_TIME sets the time
of a running lease, and the restart then runs the timer for it (R154, R157, R159). -/
def KeepsBlocks (run : Source → List Byte → State → Execution) : Prop :=
  ∀ src args s, BlocksKept s ((run src args s).state.restartLease src)

section Executions
variable (s : State) (src : Source)

theorem BlocksKept.restartLease : BlocksKept s (s.restartLease src) :=
  .of_frame (restartLease_frame s src) (lease := fun _ law => law.restart src)

/-- The reply touches its source and the lease's restart alone. -/
theorem BlocksKept.reply (r : Reply) : BlocksKept (s.restartLease src) (s.reply src r) where
  ports law p := by simpa [State.reply] using law p
  receiver law := by simpa [State.reply] using law
  lease law := by
    have e : (s.reply src r).lease = (s.restartLease src).lease := by simp [State.reply, restartLease_lease]
    rwa [e]
  notices law := by simpa [State.reply] using law

theorem BlocksKept.takeRecord : BlocksKept s (s.takeRecord src) := by
  cases src <;> exact .of_frame (takeRecord_frame s _)

theorem KeepsBlocks.execute {run : Source → List Byte → State → Execution} (h : KeepsBlocks run)
    (record : CommandRecord) : BlocksKept s (s.execute src record run) :=
  ((BlocksKept.takeRecord s src).trans (h src record.arguments (s.takeRecord src))).trans (.reply _ src _)

end Executions

/-- A command whose effects keep the laws by themselves. -/
theorem KeepsBlocks.of_effects {run : Source → List Byte → State → Execution}
    (h : ∀ src args s, BlocksKept s (run src args s).state) : KeepsBlocks run :=
  fun src args s => (h src args s).trans (.restartLease _ src)

/-- A command that reports and changes nothing. -/
theorem KeepsBlocks.of_report {run : Source → List Byte → State → Execution}
    (h : ∀ src args s, (run src args s).state = s) : KeepsBlocks run :=
  .of_effects fun src args s => by rw [h]; exact .refl s

theorem BlocksKept.refused {s : State} {status : Status} {details : List Byte} :
    BlocksKept s (refuse s status details).state := .refl s

theorem BlocksKept.succeeded {s t : State} {results : List Byte} (h : BlocksKept s t) :
    BlocksKept s (succeed t results).state := h

theorem unknownCommand_keeps : KeepsBlocks unknownCommand := .of_report fun _ _ _ => rfl

theorem identify_keeps : KeepsBlocks identify := .of_report fun _ _ _ => by
  unfold identify; split <;> rfl

theorem portStatus_keeps : KeepsBlocks portStatus := .of_report fun _ _ _ => by
  unfold portStatus; repeat' split
  all_goals rfl

theorem routeRead_keeps : KeepsBlocks routeRead := .of_report fun _ _ _ => by
  unfold routeRead; repeat' split
  all_goals rfl

theorem tableScan_keeps : KeepsBlocks tableScan := .of_report fun _ _ _ => by
  unfold tableScan; split <;> rfl

theorem trunkStatus_keeps : KeepsBlocks trunkStatus := .of_report fun _ _ _ => by
  unfold trunkStatus; split <;> rfl

theorem claim_keeps : KeepsBlocks claim := .of_effects fun src args s => by
  unfold claim
  repeat' split
  · exact ⟨id, id, fun law => law.start src, id⟩
  · exact .refused
  · exact .refused

theorem drop_keeps : KeepsBlocks drop := .of_effects fun src args s => by
  unfold drop
  repeat' split
  · exact ⟨id, id, Lease.Law.stop, id⟩
  · exact .refused
  · exact .refused

/-- A new lease time and the restart of the holder's timer leave the timer running for that time (R159). -/
theorem BlocksKept.setLeaseTime {s : State} {src : Source} {time : Nat} (holder : s.lease.holder = some src)
    (low : 100 ≤ time) (high : time ≤ 60000) :
    BlocksKept s (State.restartLease { s with lease := { s.lease with time } } src) := by
  have restarted : State.restartLease { s with lease := { s.lease with time } } src =
      { s with lease := { s.lease with time, timer := .running time } } := if_pos holder
  rw [restarted]
  exact ⟨id, id, fun _ => ⟨low, high, fun h => absurd (holder.symm.trans h) (by simp), fun _ => rfl⟩, id⟩

theorem leaseTime_keeps : KeepsBlocks leaseTime := fun src args s => by
  unfold leaseTime
  split
  · next holds =>
    have holder : s.lease.holder = some src := by simpa [State.holdsLease] using holds
    repeat' split
    · next time read =>
      obtain ⟨⟨low, high⟩, rfl⟩ : (100 ≤ read16 _ _ ∧ read16 _ _ ≤ 60000) ∧ read16 _ _ = time := by
        simpa [readRange] using read
      exact .setLeaseTime holder low high
    · exact .restartLease s src
    · exact .restartLease s src
  · exact .restartLease s src

theorem resetPart_keeps : KeepsBlocks resetPart := .of_effects fun src args s => by
  unfold resetPart
  repeat' split
  · exact ⟨id, id, id, id⟩
  · exact .refl s
  · exact .refl s

/-- A port that is disabled has its packet cut first, and is OFF at last (R8). -/
theorem BlocksKept.setPortMode (s : State) (p : Fin 4) (enable : Bool) (lanes : Lanes) :
    BlocksKept s (s.setPortMode p enable lanes) := by
  by_cases off : (s.port p).state = .off
  · obtain ⟨frame, only, set⟩ := setPortMode_off (enable := enable) (lanes := lanes) off
    refine .of_port frame only fun law => ?_
    rw [set]
    split
    · exact .of_none rfl fun h => by cases h
    · exact law
  · cases enable
    · obtain ⟨frame, only, set, -, -, -, -, raised⟩ := setPortMode_disabled (lanes := lanes) off
      refine .of_frame frame (ports := fun _ all k => ?_) (notices := fun _ law => ?_)
      · by_cases hk : k = p
        · subst hk
          rw [set]
          exact .of_none rfl fun _ => rfl
        · rw [only k hk]
          exact all k
      · rw [raised]
        exact law.raiseAll _
    · rw [setPortMode_enabled off]
      exact .refl s

theorem portSet_keeps : KeepsBlocks portSet := .of_effects fun src args s => by
  unfold portSet
  repeat' split
  · exact .refused
  · exact .succeeded (.setPortMode s _ _ _)
  all_goals exact .refused

theorem routeWrite_keeps : KeepsBlocks routeWrite := .of_effects fun src args s => by
  unfold routeWrite writeRoute
  dsimp only
  repeat' split
  all_goals first
    | exact .refused
    | exact .succeeded (.modifyRoute s _ _)

theorem routeEnable_keeps : KeepsBlocks routeEnable := .of_effects fun src args s => by
  unfold routeEnable
  dsimp only
  repeat' split
  all_goals first
    | exact .refused
    | exact .succeeded (.modifyRoute s _ _)

theorem BlocksKept.disableRoute (s : State) (r : Fin 64) : BlocksKept s (s.disableRoute r) :=
  (((BlocksKept.endIngressFrame s r _).trans (.of_frame (stopIdleTimer_frame _ r))).trans
    (.modifyRoute _ r _)).trans (.modifyPort _ _ _ fun law => law.unroute r)

theorem routeDisable_keeps : KeepsBlocks routeDisable := .of_effects fun src args s => by
  unfold routeDisable
  dsimp only
  repeat' split
  · exact .refused
  · exact .succeeded (.refl s)
  · exact .succeeded (.disableRoute s _)
  · exact .refused
  · exact .refused

/-- HOLD, RELEASE and STEP do what their gate move does (R88). -/
theorem gateCommand_keeps {move : State → Fin 64 → Option State}
    (h : ∀ s r t, move s r = some t → BlocksKept s t) : KeepsBlocks (gateCommand move) :=
  .of_effects fun src args s => by
    unfold gateCommand
    dsimp only
    repeat' split
    all_goals first
      | exact .refused
      | exact .succeeded (h s _ _ ‹_›)

theorem holdGate_keeps (s : State) (r : Fin 64) (t : State) (h : holdGate s r = some t) : BlocksKept s t := by
  unfold holdGate at h
  repeat' split at h
  all_goals first
    | exact Option.some.inj h ▸ .refl s
    | exact Option.some.inj h ▸ .modifyRoute s r _
    | exact Option.some.inj h ▸ .shutGate s r _ _
    | cases h

theorem releaseGate_keeps (s : State) (r : Fin 64) (t : State) (h : releaseGate s r = some t) : BlocksKept s t := by
  unfold releaseGate at h
  split at h
  · cases h
  · cases h; exact .modifyRoute s r _

theorem stepGate_keeps (s : State) (r : Fin 64) (t : State) (h : stepGate s r = some t) : BlocksKept s t := by
  unfold stepGate at h
  split at h
  · cases h; exact .modifyRoute s r _
  · cases h

theorem holdpointSet_keeps : KeepsBlocks holdpointSet := .of_effects fun src args s => by
  unfold holdpointSet
  dsimp only
  repeat' split
  all_goals first
    | exact .refused
    | exact .succeeded (.modifyRoute s _ _)

theorem holdpointClear_keeps : KeepsBlocks holdpointClear := .of_effects fun src args s => by
  unfold holdpointClear
  repeat' split
  · exact .succeeded (.modifyRoute s _ _)
  all_goals exact .refused

theorem poolStatus_keeps : KeepsBlocks poolStatus := .of_effects fun src args s => by
  unfold poolStatus
  repeat' split
  all_goals exact ⟨id, id, id, id⟩

theorem trunkHalt_keeps : KeepsBlocks trunkHalt := .of_effects fun src args s => by
  unfold trunkHalt
  repeat' split
  · exact .haltLink s
  · exact .refl s
  · exact .refl s

theorem trunkStart_keeps : KeepsBlocks trunkStart := .of_effects fun src args s => by
  unfold trunkStart
  repeat' split
  · exact .of_frame (enterTraining_frame s)
  all_goals exact .refused

theorem BlocksKept.retrainLink (s : State) : BlocksKept s s.retrainLink :=
  ((BlocksKept.of_frame (dropLock_frame s)).trans (.of_frame (enterTraining_frame _))).trans (.countTrunk _ _)

theorem trunkRetrain_keeps : KeepsBlocks trunkRetrain := .of_effects fun src args s => by
  unfold trunkRetrain
  repeat' split
  · exact .retrainLink s
  · exact .retrainLink s
  all_goals exact .refused

theorem noticeAck_keeps : KeepsBlocks noticeAck := .of_effects fun src args s => by
  unfold noticeAck
  repeat' split
  · exact .refl s
  · exact ⟨id, id, id, fun law => (law.drop _).deliverLost⟩
  · exact .refl s

theorem noticeReplay_keeps : KeepsBlocks noticeReplay := .of_effects fun src args s => by
  unfold noticeReplay
  split
  · exact ⟨id, id, id, NoticeQueue.Law.replay⟩
  · exact .refl s

/-- The law of the notice queue does not speak of the mask or the destination (R176, R177). -/
theorem noticeMask_keeps : KeepsBlocks noticeMask := .of_effects fun src args s => by
  unfold noticeMask
  repeat' split
  all_goals exact ⟨id, id, id, id⟩

theorem noticeRoute_keeps : KeepsBlocks noticeRoute := .of_effects fun src args s => by
  unfold noticeRoute
  repeat' split
  all_goals exact ⟨id, id, id, id⟩

theorem BlocksKept.clearSet (s : State) (set : CounterScope) : BlocksKept s (s.clearSet set) := by
  unfold State.clearSet
  split
  · exact .countRoute s _ _
  · exact .countPort s _ _
  · exact .countTrunk s _
  · exact .countSource s _ _

theorem countersRead_keeps : KeepsBlocks countersRead := .of_effects fun src args s => by
  unfold countersRead
  repeat' split
  · exact .refused
  · exact .refused
  · exact .refused
  · exact .succeeded (.clearSet s _)
  · exact .succeeded (.refl s)
  · exact .refused

/-! ## Steps -/

/-- An event keeps the laws when its effect does where it is possible. -/
theorem event_keeps {s t effect : State} {possible : Bool} (h : event s possible effect = .next t)
    (keeps : possible = true → BlocksKept s effect) : BlocksKept s t := by
  rw [event_eq] at h
  obtain rfl := Host.Outcome.next.inj h
  split
  · next taken =>
    obtain ⟨-, possible⟩ := Bool.and_eq_true _ _ ▸ taken
    exact (keeps possible).trans (.finish effect)
  · exact .refl s

theorem serve_keeps {s t : State} {run : Source → List Byte → State → Execution} (codes : Byte → Bool)
    (keeps : KeepsBlocks run) (h : s.serve codes run = .next t) : BlocksKept s t := by
  unfold State.serve at h
  split at h
  · exact event_keeps h fun _ => keeps.execute s _ _
  · exact event_keeps h fun _ => .refl s

theorem powerOn_keeps {s t : State} {straps : Straps} {resetLow : Bool}
    (h : execPowerOn straps resetLow s = .next t) : BlocksKept s t := by
  unfold execPowerOn at h
  split at h
  · obtain rfl := Host.Outcome.next.inj h
    exact .holdInReset s _
  · obtain rfl := Host.Outcome.next.inj h
    exact (BlocksKept.partReset s _ _ _).trans (.finish _)

theorem resetNAsserted_keeps {s t : State} (h : execResetNAsserted s = .next t) : BlocksKept s t := by
  obtain rfl := Host.Outcome.next.inj h
  split
  · exact .holdInReset s _
  · exact .refl s

theorem resetNReleased_keeps {s t : State} {straps : Straps} (h : execResetNReleased straps s = .next t) :
    BlocksKept s t := by
  unfold execResetNReleased at h
  split at h
  · obtain rfl := Host.Outcome.next.inj h
    exact .refl s
  · obtain rfl := Host.Outcome.next.inj h
    exact (BlocksKept.partReset s _ _ _).trans (.finish _)
  · obtain rfl := Host.Outcome.next.inj h
    exact (BlocksKept.partReset s _ _ _).trans (.finish _)

/-- Every command keeps the four block laws. -/
theorem exec_keeps (c : Instr) (s t : State) (h : exec c s = .next t) : BlocksKept s t := by
  cases c with
  | alignmentAchieved p =>
    exact event_keeps h fun on => .modifyPort s p _ fun law => law.align (by simpa using on)
  | alignmentLost p => exact event_keeps h fun _ => .alignmentLost s p
  | headerEvent p header =>
    refine event_keeps h fun comes => ?_
    simp only [Bool.and_eq_true, bne_iff_ne] at comes
    obtain ⟨⟨on, aligned⟩, -⟩ := comes
    exact .headerArrives s p header aligned on
  | endEvent p => exact event_keeps h fun _ => .packetEnds s p
  | frameIdleExpiry r => exact event_keeps h fun _ => .endIngressFrame s r _
  | characterReceived character stopBit => exact event_keeps h fun _ => .character s character stopBit
  | gapAbort => exact event_keeps h fun _ => (BlocksKept.endReception s).trans (.countSource _ _ _)
  | controlPortCompletion straps => exact event_keeps h fun _ => .completePort s straps
  | unknownCommand => exact serve_keeps (fun code => !commandCodes.contains code) unknownCommand_keeps h
  | identify => exact serve_keeps (· == 0x01) identify_keeps h
  | claim => exact serve_keeps (· == 0x02) claim_keeps h
  | drop => exact serve_keeps (· == 0x03) drop_keeps h
  | leaseTime => exact serve_keeps (· == 0x04) leaseTime_keeps h
  | resetPart => exact serve_keeps (· == 0x05) resetPart_keeps h
  | portSet => exact serve_keeps (· == 0x10) portSet_keeps h
  | portStatus => exact serve_keeps (· == 0x11) portStatus_keeps h
  | routeRead => exact serve_keeps (· == 0x20) routeRead_keeps h
  | routeWrite => exact serve_keeps (· == 0x21) routeWrite_keeps h
  | routeEnable => exact serve_keeps (· == 0x22) routeEnable_keeps h
  | routeDisable => exact serve_keeps (· == 0x23) routeDisable_keeps h
  | tableScan => exact serve_keeps (· == 0x24) tableScan_keeps h
  | hold => exact serve_keeps (· == 0x28) (gateCommand_keeps holdGate_keeps) h
  | release => exact serve_keeps (· == 0x29) (gateCommand_keeps releaseGate_keeps) h
  | step => exact serve_keeps (· == 0x2A) (gateCommand_keeps stepGate_keeps) h
  | holdpointSet => exact serve_keeps (· == 0x2B) holdpointSet_keeps h
  | holdpointClear => exact serve_keeps (· == 0x2C) holdpointClear_keeps h
  | poolStatus => exact serve_keeps (· == 0x30) poolStatus_keeps h
  | trunkStatus => exact serve_keeps (· == 0x40) trunkStatus_keeps h
  | trunkHalt => exact serve_keeps (· == 0x41) trunkHalt_keeps h
  | trunkStart => exact serve_keeps (· == 0x42) trunkStart_keeps h
  | trunkRetrain => exact serve_keeps (· == 0x43) trunkRetrain_keeps h
  | noticeAck => exact serve_keeps (· == 0x50) noticeAck_keeps h
  | noticeReplay => exact serve_keeps (· == 0x51) noticeReplay_keeps h
  | noticeMask => exact serve_keeps (· == 0x52) noticeMask_keeps h
  | noticeRoute => exact serve_keeps (· == 0x53) noticeRoute_keeps h
  | countersRead => exact serve_keeps (· == 0x60) countersRead_keeps h
  | creditGrant rest => exact event_keeps h fun _ => .takeGrant s rest
  | remoteCommandRecord rest =>
    refine event_keeps h fun _ => ?_
    split
    · exact .takeRemote s rest
    · exact .countTrunk s _
  | acknowledgement rest => exact event_keeps h fun _ => .acknowledge s rest
  | unknownReverseRecord record => exact event_keeps h fun _ => .countTrunk s _
  | reverseAlignment => exact event_keeps h fun _ => ⟨id, id, id, id⟩
  | signalLoss =>
    refine event_keeps h fun _ => ?_
    split
    · exact .loseSignal s
    · exact ⟨id, id, id, id⟩
  | trainTimerExpiry => exact event_keeps h fun _ => (BlocksKept.of_frame (enterDown_frame s)).trans (.countTrunk _ _)
  | retryTimerExpiry => exact event_keeps h fun _ => .of_frame (enterTraining_frame s)
  | transmissionCompletion straps => exact event_keeps h fun _ => .completeTrunk s straps
  | stallExpiry => exact event_keeps h fun _ => .expireStall s
  | leaseExpiry => exact event_keeps h fun _ => .expireLease s
  | graceExpiry straps => exact event_keeps h fun _ => .expireGrace s straps
  | powerOn straps resetLow => exact powerOn_keeps h
  | resetNAsserted => exact resetNAsserted_keeps h
  | resetNReleased straps => exact resetNReleased_keeps h
  | bytesReceived p bytes => exact event_keeps h fun _ => .bytesArrive s p bytes

/-- Settles O57: a step runs the front command, which keeps each law alone, and the queue of waiting commands is in none
of the laws. -/
theorem blockLawsAreKept : Obligations.BlockLawsAreKept := by
  intro s t h
  have kept : BlocksKept s t := by
    unfold step at h
    split at h
    · obtain rfl := Host.Outcome.next.inj h
      exact .refl s
    · next c rest _ =>
      have taken : BlocksKept s { s with pending := rest } := ⟨id, id, id, id⟩
      exact taken.trans (exec_keeps c _ t h)
  exact ⟨kept.ports, kept.receiver, kept.lease, kept.notices⟩

end Sys2Proof.Machine
end

section
/-! The edit of a ROUTE_WRITE (R25, R28, R29 check 3): which entry it produces, and the bytes that spell it. -/

namespace Sys2Proof.Machine

-- One theorem after another, as in the model's tests.
set_option Elab.async false

/-! ## Named values in range -/

theorem readRange_eq_some {low high n v : Nat} : readRange low high n = some v ↔ low ≤ n ∧ n ≤ high ∧ v = n := by
  simp [readRange, and_assoc, eq_comm]

/-- A byte reads as a mode exactly when it is the mode's code. -/
theorem readMode_eq_some {b : Byte} {mode : Mode} : readMode b = some mode ↔ mode.code = b := by
  refine ⟨fun h => ?_, fun h => h ▸ readMode_code mode⟩
  by_cases b0 : b = 0
  · subst b0; obtain rfl : Mode.plain = mode := Option.some.inj h; rfl
  · by_cases b1 : b = 1
    · subst b1; obtain rfl : Mode.sealed = mode := Option.some.inj h; rfl
    · simp [readMode, readFlag_eq_none b0 b1] at h

/-- A byte reads as a damage policy exactly when it is the policy's code. -/
theorem readPolicy_eq_some {b : Byte} {policy : DamagePolicy} : readPolicy b = some policy ↔ policy.code = b := by
  refine ⟨fun h => ?_, fun h => h ▸ readPolicy_code policy⟩
  by_cases b0 : b = 0
  · subst b0; obtain rfl : DamagePolicy.forward = policy := Option.some.inj h; rfl
  · by_cases b1 : b = 1
    · subst b1; obtain rfl : DamagePolicy.abort = policy := Option.some.inj h; rfl
    · simp [readPolicy, readFlag_eq_none b0 b1] at h

theorem readFilter_eq_some {codes : List Byte} {values : List Nat} :
    readFilter codes = some values ↔
      values = codes.map BitVec.toNat ∧ values.Nodup ∧ ∀ code ∈ values, 0x08 ≤ code ∧ code ≤ 0x3F := by
  simp only [readFilter, Option.ite_none_right_eq_some, Option.some.injEq, Bool.and_eq_true, List.all_eq_true,
    decide_eq_true_eq]
  constructor
  · rintro ⟨⟨range, nodup⟩, rfl⟩
    exact ⟨rfl, nodup, range⟩
  · rintro ⟨rfl, nodup, range⟩
    exact ⟨⟨range, nodup⟩, rfl⟩

theorem readOverride_eq_some {b : Byte} {code : Option Nat} :
    readOverride b = some code ↔
      (b = 0 ∧ code = none) ∨ (0x10 ≤ b.toNat ∧ b.toNat ≤ 0x3F ∧ code = some b.toNat) := by
  by_cases b0 : b = 0
  · subst b0; cases code <;> simp [readOverride]
  · have named : ¬ (b = 0 ∧ code = none) := fun h => b0 h.1
    rw [readOverride, if_neg (by simpa using b0), Option.ite_none_right_eq_some, Option.some.injEq,
      eq_comm (a := some b.toNat), or_iff_right named, and_assoc]

/-! ## The entry a write produces -/

/-- A field that is not named keeps its value (R25). -/
theorem chosen_none {α β : Type} {present v : β} {read : α → Option β} :
    chosen none present read = some v ↔ v = present := by simp [chosen, eq_comm]

/-- A field that is named takes the value that is read. -/
theorem chosen_some {α β : Type} {a : α} {present : β} {read : α → Option β} :
    chosen (some a) present read = read a := rfl

/-- A write produces an entry exactly when each field is chosen and the resulting floor is within the cap. -/
theorem edited_eq_some {config result : RouteConfig} {edit : RouteEdit} :
    config.edited edit = some result ↔
      chosen edit.trunkChannel config.trunkChannel (fun b => readRange 0 63 b.toNat) = some result.trunkChannel ∧
      chosen edit.mode config.mode readMode = some result.mode ∧
      chosen edit.filter config.filter readFilter = some result.filter ∧
      chosen edit.overrideCode config.overrideCode readOverride = some result.overrideCode ∧
      chosen edit.policy config.policy readPolicy = some result.policy ∧
      chosen edit.cap config.cap (readRange 16 Config.segmentCount) = some result.cap ∧
      chosen edit.floor config.floor some = some result.floor ∧
      chosen edit.idleLimit config.idleLimit (readRange 1 1000) = some result.idleLimit ∧
      result.floor ≤ result.cap := by
  obtain ⟨trunkChannel, mode, filter, overrideCode, policy, cap, floor, idleLimit⟩ := result
  simp only [RouteConfig.edited, Option.bind_eq_bind, Option.bind_eq_some_iff, Option.ite_none_right_eq_some,
    Option.some.injEq, RouteConfig.mk.injEq]
  constructor
  · rintro ⟨_, h1, _, h2, _, h3, _, h4, _, h5, _, h6, _, h7, _, h8, h9, rfl, rfl, rfl, rfl, rfl, rfl, rfl, rfl⟩
    exact ⟨h1, h2, h3, h4, h5, h6, h7, h8, h9⟩
  · rintro ⟨h1, h2, h3, h4, h5, h6, h7, h8, h9⟩
    exact ⟨_, h1, _, h2, _, h3, _, h4, _, h5, _, h6, _, h7, _, h8, h9, rfl, rfl, rfl, rfl, rfl, rfl, rfl, rfl⟩

/-- Settles O36: each field is chosen on its own, and each named value reads as its range says. -/
theorem routeEditKeepsOtherFields : Obligations.RouteEditKeepsOtherFields := by
  rintro config ⟨trunkChannel, mode, filter, overrideCode, policy, cap, floor, idleLimit⟩ result
  rw [edited_eq_some]
  refine and_congr ?_ <| and_congr ?_ <| and_congr ?_ <| and_congr ?_ <| and_congr ?_ <| and_congr ?_ <|
    and_congr ?_ <| and_congr ?_ Iff.rfl
  · cases trunkChannel <;> simp [chosen_none, chosen_some, readRange_eq_some]
  · cases mode <;> simp [chosen_none, chosen_some, readMode_eq_some]
  · cases filter <;> simp only [chosen_none, chosen_some, readFilter_eq_some]
  · cases overrideCode <;> simp only [chosen_none, chosen_some, readOverride_eq_some]
  · cases policy <;> simp [chosen_none, chosen_some, readPolicy_eq_some]
  · cases cap <;> simp [chosen_none, chosen_some, readRange_eq_some]
  · cases floor
    · exact chosen_none
    · rw [chosen_some, Option.some.injEq, eq_comm]
  · cases idleLimit <;> simp [chosen_none, chosen_some, readRange_eq_some]

/-! ## The bytes that spell an edit -/

/-- The bytes of a filter list: its count and its codes (R28). -/
def filterBytes : Option (List Byte) → List Byte
  | some codes => byte codes.length :: codes
  | none => []

theorem RouteEdit.values_eq (edit : RouteEdit) :
    edit.values =
      edit.trunkChannel.toList ++ (edit.mode.toList ++ (filterBytes edit.filter ++ (edit.overrideCode.toList ++
        (edit.policy.toList ++ (edit.cap.toList.flatMap word16 ++ (edit.floor.toList.flatMap word16 ++
          edit.idleLimit.toList.flatMap word16)))))) := by
  obtain ⟨_, _, _ | _, _, _, _, _, _⟩ := edit <;> simp [RouteEdit.values, filterBytes]

theorem takeByte_eq_some {selected : Bool} {args rest : List Byte} {value : Option Byte} :
    takeByte selected args = some (value, rest) ↔ selected = value.isSome ∧ args = value.toList ++ rest := by
  cases selected <;> cases value <;> cases args <;> simp [takeByte]

theorem takeWord_eq_some {selected : Bool} {args rest : List Byte} {value : Option Nat} :
    takeWord selected args = some (value, rest) ↔
      selected = value.isSome ∧ (∀ n ∈ value, n < 65536) ∧ args = value.toList.flatMap word16 ++ rest := by
  cases selected
  · cases value <;> simp [takeWord]
  · constructor
    · intro h
      match args, h with
      | lo :: hi :: after, h =>
        simp only [takeWord, if_true, Option.some.injEq, Prod.mk.injEq] at h
        obtain ⟨rfl, rfl⟩ := h
        have := lo.isLt
        have := hi.isLt
        refine ⟨rfl, fun n hn => ?_, by simp [word16_read16]⟩
        obtain rfl := Option.some.inj hn
        simp only [read16]
        omega
    · rintro ⟨named, bound, rfl⟩
      obtain ⟨n, rfl⟩ := Option.isSome_iff_exists.1 named.symm
      simp [takeWord, word16, read16_word16 (bound n rfl)]

theorem takeFilter_eq_some {selected : Bool} {args rest : List Byte} {value : Option (List Byte)} :
    takeFilter selected args = some (value, rest) ↔
      selected = value.isSome ∧ (∀ codes ∈ value, codes.length ≤ 4) ∧ args = filterBytes value ++ rest := by
  cases selected
  · cases value <;> simp [takeFilter, filterBytes]
  · constructor
    · intro h
      match args, h with
      | count :: after, h =>
        simp only [takeFilter, if_true, Option.ite_none_right_eq_some, Option.some.injEq, Prod.mk.injEq] at h
        obtain ⟨⟨few, there⟩, rfl, rfl⟩ := h
        have length : (after.take count.toNat).length = count.toNat := by simp [there]
        refine ⟨rfl, fun codes h => ?_, ?_⟩
        · obtain rfl := Option.some.inj h
          omega
        · simp only [filterBytes, length, List.cons_append, List.take_append_drop]
          rw [byte, BitVec.ofNat_toNat, BitVec.setWidth_eq]
    · rintro ⟨named, few, rfl⟩
      obtain ⟨codes, rfl⟩ := Option.isSome_iff_exists.1 named.symm
      have few := few codes rfl
      have count : (byte codes.length).toNat = codes.length := by rw [byte_toNat]; omega
      simp [takeFilter, filterBytes, count, few]

/-- The bits of a field selection are the fields that are named (R28). -/
theorem selectionBits_getLsbD (b0 b1 b2 b3 b4 b5 b6 b7 : Bool) :
    let selection := byte (flagBit b0 0 + flagBit b1 1 + flagBit b2 2 + flagBit b3 3 + flagBit b4 4 + flagBit b5 5
      + flagBit b6 6 + flagBit b7 7)
    selection.getLsbD 0 = b0 ∧ selection.getLsbD 1 = b1 ∧ selection.getLsbD 2 = b2 ∧ selection.getLsbD 3 = b3 ∧
    selection.getLsbD 4 = b4 ∧ selection.getLsbD 5 = b5 ∧ selection.getLsbD 6 = b6 ∧ selection.getLsbD 7 = b7 := by
  revert b0 b1 b2 b3 b4 b5 b6 b7
  decide

/-- A byte is the field selection of an edit exactly when its bits say which fields the edit names. -/
theorem selection_eq_iff {edit : RouteEdit} {selection : Byte} :
    edit.selection = selection ↔
      selection.getLsbD 0 = edit.trunkChannel.isSome ∧ selection.getLsbD 1 = edit.mode.isSome ∧
      selection.getLsbD 2 = edit.filter.isSome ∧ selection.getLsbD 3 = edit.overrideCode.isSome ∧
      selection.getLsbD 4 = edit.policy.isSome ∧ selection.getLsbD 5 = edit.cap.isSome ∧
      selection.getLsbD 6 = edit.floor.isSome ∧ selection.getLsbD 7 = edit.idleLimit.isSome := by
  have bits := selectionBits_getLsbD edit.trunkChannel.isSome edit.mode.isSome edit.filter.isSome
    edit.overrideCode.isSome edit.policy.isSome edit.cap.isSome edit.floor.isSome edit.idleLimit.isSome
  refine ⟨fun h => h ▸ bits, fun ⟨h0, h1, h2, h3, h4, h5, h6, h7⟩ => ?_⟩
  obtain ⟨e0, e1, e2, e3, e4, e5, e6, e7⟩ := bits
  refine BitVec.eq_of_getLsbD_eq fun i hi => ?_
  rw [RouteEdit.selection]
  interval_cases i
  · rw [e0, h0]
  · rw [e1, h1]
  · rw [e2, h2]
  · rw [e3, h3]
  · rw [e4, h4]
  · rw [e5, h5]
  · rw [e6, h6]
  · rw [e7, h7]

/-- Arguments read as an edit exactly when the edit is one they can spell, and they spell it. -/
theorem readEdit_eq_some {selection : Byte} {args : List Byte} {edit : RouteEdit} :
    readEdit selection args = some edit ↔ edit.Spellable ∧ edit.selection = selection ∧ edit.values = args := by
  simp only [readEdit, Option.bind_eq_bind, Option.bind_eq_some_iff, Prod.exists, takeByte_eq_some, takeWord_eq_some,
    takeFilter_eq_some, Option.ite_none_right_eq_some, Option.some.injEq, List.isEmpty_iff, selection_eq_iff,
    edit.values_eq]
  constructor
  · rintro ⟨_, _, ⟨s0, rfl⟩, _, _, ⟨s1, rfl⟩, _, _, ⟨s2, few, rfl⟩, _, _, ⟨s3, rfl⟩, _, _, ⟨s4, rfl⟩, _, _,
      ⟨s5, cap, rfl⟩, _, _, ⟨s6, floor, rfl⟩, _, _, ⟨s7, idle, rfl⟩, rfl, rfl⟩
    exact ⟨⟨few, cap, floor, idle⟩, ⟨s0, s1, s2, s3, s4, s5, s6, s7⟩, by simp⟩
  · rintro ⟨⟨few, cap, floor, idle⟩, ⟨s0, s1, s2, s3, s4, s5, s6, s7⟩, rfl⟩
    exact ⟨_, _, ⟨s0, rfl⟩, _, _, ⟨s1, rfl⟩, _, _, ⟨s2, few, rfl⟩, _, _, ⟨s3, rfl⟩, _, _, ⟨s4, rfl⟩, _, _,
      ⟨s5, cap, rfl⟩, _, _, ⟨s6, floor, rfl⟩, _, _, ⟨s7, idle, (List.append_nil _).symm⟩, rfl, rfl⟩

/-- Settles O35: both ways of `readEdit_eq_some`. -/
theorem routeEditReadsBack : Obligations.RouteEditReadsBack :=
  ⟨fun _ spellable => readEdit_eq_some.2 ⟨spellable, rfl, rfl⟩, fun _ _ _ read => readEdit_eq_some.1 read⟩

end Sys2Proof.Machine
end

section
/-! SUPPORT. The laws of the route table and of its runtime fields (R19, R21, R25, R26, R41, R51, R70, R87), and what
no event but its own moves (R107, R127). `TableKept c s t` says of an operation what all these laws need: what becomes
of each entry, that no packet comes to a route, that records are only added at the tail, and that the epoch stays. The
gate law of an entry is kept where `c` holds: an opening mark keeps it at a route in service alone. It is shown once
for each operation and put together along the operations' own composition. -/

namespace Sys2Proof.Machine

-- One theorem after another, as in the model's tests.
set_option Elab.async false

/-! ## One entry -/

/-- The entry `y` has the configuration of `x`, is in service when `x` is, and keeps each law that `x` meets; the gate
law where `c` holds. -/
structure Route.Kept (c : Prop) (x y : Route) : Prop where
  config : y.config = x.config
  held : x.heldSegments ≤ x.config.cap → y.heldSegments ≤ x.config.cap
  service : y.gate = .disabled ↔ x.gate = .disabled
  gate : c → x.GateLaw → y.GateLaw
  timer : x.TimerLaw → y.TimerLaw
  counts : x.FrameCounts → y.FrameCounts

/-- The counts of an open frame with its line in assembly are in order (R21, R51). -/
def OpenFrame.Counted (frame : OpenFrame) (line : Option LineInAssembly) : Prop :=
  1 ≤ frame.declaredLines ∧ frame.declaredLines ≤ 4095 ∧ 1 ≤ frame.declaredBytes ∧ frame.declaredBytes ≤ 8192 ∧
  frame.received ≤ frame.declaredLines ∧ frame.forwarded + lineInHand line ≤ frame.received

section Entry
variable {c : Prop} {x y z : Route} {frame frame' : OpenFrame} {line line' : Option LineInAssembly}

theorem frameCounts_iff (assembly : x.assembly = .assembling frame line) : x.FrameCounts ↔ frame.Counted line := by
  refine ⟨fun law => law frame line assembly, fun counted f l h => ?_⟩
  obtain ⟨rfl, rfl⟩ := Assembly.assembling.inj (assembly.symm.trans h)
  exact counted

theorem isAssembling_of_eq (assembly : x.assembly = .assembling frame line) : x.isAssembling = true := by
  rw [Route.isAssembling, assembly]

theorem isAssembling_of_ne (out : ∀ frame line, x.assembly ≠ .assembling frame line) : x.isAssembling = false := by
  unfold Route.isAssembling
  split
  · next frame line h => exact absurd h (out frame line)
  · rfl

theorem frameCounts_of_out (out : x.isAssembling = false) : x.FrameCounts := fun frame line h => by
  simp [Route.isAssembling, h] at out

theorem Route.Kept.refl (c : Prop) (x : Route) : x.Kept c x := ⟨rfl, id, Iff.rfl, fun _ => id, id, id⟩

theorem Route.Kept.trans (h : x.Kept c y) (k : y.Kept c z) : x.Kept c z where
  config := k.config.trans h.config
  held law := h.config ▸ k.held (h.config ▸ h.held law)
  service := k.service.trans h.service
  gate hc law := k.gate hc (h.gate hc law)
  timer := k.timer ∘ h.timer
  counts := k.counts ∘ h.counts

/-- An entry whose configuration, gate and assembly state stay, whose held segments do not rise and whose timer at most
stops. -/
theorem Route.Kept.of_same (config : y.config = x.config) (gate : y.gate = x.gate) (assembly : y.assembly = x.assembly)
    (held : y.heldSegments ≤ x.heldSegments) (timer : y.idleTimer = x.idleTimer ∨ y.idleTimer = .stopped) :
    x.Kept c y where
  config := config
  held law := held.trans law
  service := by rw [gate]
  gate _ law := by simpa only [Route.GateLaw, Route.isAssembling, gate, assembly] using law
  timer law idle := timer.elim (fun same => same.trans (law (assembly ▸ idle))) id
  counts law frame line h := law frame line (assembly ▸ h)

/-- An open frame that goes on: the timer law does not speak of it, and the gate law asks only that it is open. -/
theorem Route.Kept.of_assembling (before : x.assembly = .assembling frame line)
    (after : y.assembly = .assembling frame' line') (config : y.config = x.config) (gate : y.gate = x.gate)
    (held : x.heldSegments ≤ x.config.cap → y.heldSegments ≤ x.config.cap)
    (counted : frame.Counted line → frame'.Counted line') : x.Kept c y where
  config := config
  held := held
  service := by rw [gate]
  gate _ law := by simpa [Route.GateLaw, Route.isAssembling, gate, before, after] using law
  timer _ idle := by simp [after] at idle
  counts law := (frameCounts_iff after).2 (counted ((frameCounts_iff before).1 law))

/-- A frame that is over, or a skip: no count is open, and CLOSING is no gate of it. -/
theorem Route.Kept.of_out (out : y.isAssembling = false) (config : y.config = x.config)
    (held : y.heldSegments ≤ x.heldSegments) (service : y.gate = .disabled ↔ x.gate = .disabled)
    (timer : y.assembly = .idle → y.idleTimer = .stopped)
    (gate : c → x.GateLaw → y.gate ≠ .closing ∧ (y.gate = .disabled → y.assembly = .idle)) : x.Kept c y where
  config := config
  held law := held.trans law
  service := service
  gate hc law := by
    obtain ⟨closing, disabled⟩ := gate hc law
    exact ⟨fun h => absurd h closing, fun _ => out, disabled⟩
  timer _ := timer
  counts _ := frameCounts_of_out out

/-- A gate in service that moves within service, to CLOSING under an open frame alone and to SHUT under none. -/
theorem Route.Kept.moveGate {gate : Gate} (served : x.gate ≠ .disabled) (service : gate ≠ .disabled)
    (closing : gate = .closing → x.isAssembling = true) (shut : gate = .shut → x.isAssembling = false) :
    x.Kept c { x with gate } where
  config := rfl
  held := id
  service := ⟨fun h => absurd h service, fun h => absurd h served⟩
  gate _ _ := ⟨closing, shut, fun h => absurd h service⟩
  timer := id
  counts := id

theorem afterAbort_eq_disabled (gate : Gate) (reason : AbortReason) :
    gate.afterAbort reason = .disabled ↔ gate = .disabled := by
  cases gate <;> cases reason <;> simp [Gate.afterAbort]

theorem afterAbort_ne_closing (gate : Gate) {reason : AbortReason} (h : reason ≠ .disabled) :
    gate.afterAbort reason ≠ .closing := by
  cases reason
  case disabled => exact absurd rfl h
  all_goals cases gate <;> simp [Gate.afterAbort]

theorem afterClose_eq_disabled (gate : Gate) : gate.afterClose = .disabled ↔ gate = .disabled := by
  cases gate <;> simp [Gate.afterClose]

theorem afterClose_ne_closing (gate : Gate) : gate.afterClose ≠ .closing := by
  cases gate <;> simp [Gate.afterClose]

/-- The end of an ingress frame leaves no frame open (R63). -/
theorem ended_out (x : Route) (reason : AbortReason) : (x.ended reason).isAssembling = false := by
  unfold Route.ended
  split
  · cases reason <;> rfl
  · rfl
  · next h => simp [Route.isAssembling, h]

/-- The end of an ingress frame keeps the laws; only ROUTE_DISABLE leaves the gate to its caller (R63, R87). -/
theorem Route.Kept.ended (x : Route) {reason : AbortReason} (h : reason ≠ .disabled) : x.Kept c (x.ended reason) := by
  have out := ended_out x reason
  rcases assembly : x.assembly with _ | ⟨frame, line⟩ | _
  · have e : x.ended reason = x := by simp [Route.ended, assembly]
    rw [e]
    exact .refl c x
  · simp only [Route.ended, assembly] at out ⊢
    refine .of_out out rfl (Nat.sub_le _ _) (afterAbort_eq_disabled _ _) (fun _ => rfl) fun _ ⟨_, _, disabled⟩ =>
      ⟨afterAbort_ne_closing _ h, fun d => ?_⟩
    rw [disabled ((afterAbort_eq_disabled _ _).1 d)] at assembly
    cases assembly
  · simp only [Route.ended, assembly] at out ⊢
    refine .of_out out rfl le_rfl Iff.rfl (fun _ => rfl) fun _ ⟨closing, _, _⟩ => ⟨fun d => ?_, fun _ => rfl⟩
    have := closing d
    simp [Route.isAssembling, assembly] at this

/-- A frame that is skipped (R45, R48): its route is in service, and not CLOSING since no frame is open. -/
theorem Route.Kept.skip (out : x.isAssembling = false) (served : c → x.gate ≠ .disabled)
    (assembly : y.assembly = .skipping) (config : y.config = x.config) (gate : y.gate = x.gate)
    (held : y.heldSegments = x.heldSegments) : x.Kept c y := by
  refine .of_out (by simp [Route.isAssembling, assembly]) config held.le (by rw [gate]) (by simp [assembly])
    fun hc ⟨closing, _, _⟩ => ?_
  rw [gate]
  exact ⟨fun d => by simp [out] at closing; exact closing d, fun d => absurd d (served hc)⟩

end Entry

/-! ## Packets that come to a route -/

/-- The port `y` has no packet with disposition TO_ROUTE that `x` did not have. -/
def Port.RoutesNoMore (x y : Port) : Prop :=
  ∀ packet, y.reception = some packet → packet.disposition = .toRoute →
    ∃ old, x.reception = some old ∧ old.disposition = .toRoute ∧ old.header = packet.header

section Packets
variable {x y z : Port}

theorem Port.RoutesNoMore.trans (h : x.RoutesNoMore y) (k : y.RoutesNoMore z) : x.RoutesNoMore z := by
  intro packet held routed
  obtain ⟨old, held', routed', same⟩ := k packet held routed
  obtain ⟨older, held'', routed'', same'⟩ := h old held' routed'
  exact ⟨older, held'', routed'', same'.trans same⟩

theorem Port.RoutesNoMore.of_eq (h : y.reception = x.reception) : x.RoutesNoMore y :=
  fun packet held routed => ⟨packet, h ▸ held, routed, rfl⟩

theorem Port.RoutesNoMore.of_none (h : y.reception = none) : x.RoutesNoMore y :=
  fun packet held => by simp [h] at held

/-- A packet in reception that is not TO_ROUTE comes to no route. -/
theorem Port.RoutesNoMore.of_away {packet : Reception} (h : y.reception = some packet)
    (away : packet.disposition ≠ .toRoute) : x.RoutesNoMore y := by
  intro other held routed
  obtain rfl := Option.some.inj (h.symm.trans held)
  exact absurd routed away

/-- A packet that keeps its header and its disposition. -/
theorem Port.RoutesNoMore.of_some {old packet : Reception} (before : x.reception = some old)
    (after : y.reception = some packet) (header : old.header = packet.header)
    (disposition : old.disposition = packet.disposition) : x.RoutesNoMore y := by
  intro other held routed
  obtain rfl := Option.some.inj (after.symm.trans held)
  exact ⟨old, before, disposition.trans routed, header⟩

end Packets

/-! ## The part -/

/-- What the laws of the table need of an operation. -/
structure TableKept (c : Prop) (s t : State) : Prop where
  entries : ∀ r, (s.route r).Kept c (t.route r)
  packets : ∀ p, (s.port p).RoutesNoMore (t.port p)
  queue : s.queue <+: t.queue
  epoch : t.link.epoch = s.link.epoch

/-- `t` meets each of the laws of the table that `s` meets. -/
structure LawsKept (s t : State) : Prop where
  configured : s.Configured → t.Configured
  clashFree : s.ClashFree → t.ClashFree
  gates : s.GateLaw → t.GateLaw
  timers : (∀ r, (s.route r).TimerLaw) → ∀ r, (t.route r).TimerLaw
  counts : (∀ r, (s.route r).FrameCounts) → ∀ r, (t.route r).FrameCounts

/-- Records are only added at the tail, and the configurations and the epoch stay (R19, R107, R127). -/
structure Untouched (s t : State) : Prop where
  queue : s.queue <+: t.queue
  configs : ∀ r, (t.route r).config = (s.route r).config
  epoch : t.link.epoch = s.link.epoch

/-- What every event does but a ROUTE_WRITE, a completion on the trunk and a part reset. -/
structure PartKept (s t : State) : Prop extends LawsKept s t, Untouched s t

section Part
variable {c : Prop} {s t u : State}

theorem LawsKept.refl (s : State) : LawsKept s s := ⟨id, id, id, id, id⟩

theorem LawsKept.trans (h : LawsKept s t) (k : LawsKept t u) : LawsKept s u :=
  ⟨k.configured ∘ h.configured, k.clashFree ∘ h.clashFree, k.gates ∘ h.gates, k.timers ∘ h.timers,
    k.counts ∘ h.counts⟩

theorem Untouched.trans (h : Untouched s t) (k : Untouched t u) : Untouched s u :=
  ⟨h.queue.trans k.queue, fun r => (k.configs r).trans (h.configs r), k.epoch.trans h.epoch⟩

theorem PartKept.trans (h : PartKept s t) (k : PartKept t u) : PartKept s u :=
  ⟨h.toLawsKept.trans k.toLawsKept, h.toUntouched.trans k.toUntouched⟩

theorem TableKept.trans (h : TableKept c s t) (k : TableKept c t u) : TableKept c s u :=
  ⟨fun r => (h.entries r).trans (k.entries r), fun p => (h.packets p).trans (k.packets p), h.queue.trans k.queue,
    k.epoch.trans h.epoch⟩

/-- An operation that leaves the table, the ports, the queue and the epoch. -/
theorem TableKept.of_same (routes : t.routes = s.routes) (ports : t.ports = s.ports) (queue : t.queue = s.queue)
    (epoch : t.link.epoch = s.link.epoch) : TableKept c s t where
  entries r := by rw [State.route_congr routes]; exact .refl c _
  packets p := .of_eq (by rw [State.port_congr ports])
  queue := queue ▸ List.prefix_rfl
  epoch := epoch

theorem TableKept.refl (c : Prop) (s : State) : TableKept c s s := .of_same rfl rfl rfl rfl

/-- What is left as it was is kept; for a piece that changes the caller shows it. -/
theorem TableKept.of_frame {changed : List Piece} (h : SameBut s t changed)
    (entries : .routes ∈ changed → ∀ r, (s.route r).Kept c (t.route r) := by simp [Source.piece])
    (packets : .ports ∈ changed → ∀ p, (s.port p).RoutesNoMore (t.port p) := by simp [Source.piece])
    (queue : .queue ∈ changed → s.queue <+: t.queue := by simp [Source.piece])
    (epoch : .link ∈ changed → t.link.epoch = s.link.epoch := by simp [Source.piece]) : TableKept c s t where
  entries r := by
    by_cases hc : Piece.routes ∈ changed
    · exact entries hc r
    · rw [h.route r hc]; exact .refl c _
  packets p := by
    by_cases hc : Piece.ports ∈ changed
    · exact packets hc p
    · exact .of_eq (by rw [h.port p hc])
  queue := by
    by_cases hc : Piece.queue ∈ changed
    · exact queue hc
    · exact h.queue hc ▸ List.prefix_rfl
  epoch := by
    by_cases hc : Piece.link ∈ changed
    · exact epoch hc
    · rw [h.link hc]

/-- A change of one entry keeps every entry when it keeps that one. -/
theorem OnlyRoute.entries {r : Fin 64} (only : OnlyRoute s t r) (entry : (s.route r).Kept c (t.route r)) (k : Fin 64) :
    (s.route k).Kept c (t.route k) := by
  by_cases hk : k = r
  · subst hk; exact entry
  · rw [only k hk]; exact .refl c _

theorem OnlyPort.packets {p : Fin 4} (only : OnlyPort s t p) (port : (s.port p).RoutesNoMore (t.port p)) (k : Fin 4) :
    (s.port k).RoutesNoMore (t.port k) := by
  by_cases hk : k = p
  · subst hk; exact port
  · exact .of_eq (by rw [only k hk])

theorem TableKept.untouched (h : TableKept c s t) : Untouched s t := ⟨h.queue, fun r => (h.entries r).config, h.epoch⟩

/-- The laws follow, the gate law under the operation's condition. -/
theorem TableKept.laws (h : TableKept c s t) (hc : s.GateLaw → c) : LawsKept s t where
  configured law r := by
    obtain ⟨range, sealed, held⟩ := law r
    have config := (h.entries r).config
    exact ⟨config ▸ range, config ▸ sealed, config ▸ (h.entries r).held held⟩
  clashFree law r k ne inService inService' := by
    rw [(h.entries r).config, (h.entries k).config]
    exact law r k ne (mt (h.entries r).service.2 inService) (mt (h.entries k).service.2 inService')
  gates law := by
    have condition := hc law
    obtain ⟨gates, routed⟩ := law
    refine ⟨fun r => (h.entries r).gate condition (gates r), fun p packet header held disposition some => ?_⟩
    obtain ⟨old, held', routed', same⟩ := h.packets p packet held disposition
    exact mt (h.entries _).service.1 (routed p old header held' routed' (same.trans some))
  timers law r := (h.entries r).timer (law r)
  counts law r := (h.entries r).counts (law r)

theorem TableKept.part (h : TableKept True s t) : PartKept s t := ⟨h.laws fun _ => trivial, h.untouched⟩

theorem PartKept.refl (s : State) : PartKept s s := (TableKept.refl True s).part

theorem PartKept.of_same (routes : t.routes = s.routes) (ports : t.ports = s.ports) (queue : t.queue = s.queue)
    (epoch : t.link.epoch = s.link.epoch) : PartKept s t := (TableKept.of_same routes ports queue epoch).part

end Part

/-! ## Updates -/

section Updates
variable {c : Prop} (s : State) (r : Fin 64) (p : Fin 4)

theorem TableKept.modifyRoute (f : Route → Route) (h : (s.route r).Kept c (f (s.route r))) :
    TableKept c s (s.modifyRoute r f) :=
  .of_frame (modifyRoute_frame s r f)
    (entries := fun _ => (modifyRoute_onlyRoute s r f).entries (by rw [State.route_modifyRoute_self]; exact h))

theorem TableKept.countRoute (f : RouteCounters → RouteCounters) : TableKept c s (s.countRoute r f) :=
  .modifyRoute s r _ (.of_same rfl rfl rfl le_rfl (.inl rfl))

theorem TableKept.stopIdleTimer : TableKept c s (s.stopIdleTimer r) :=
  .modifyRoute s r _ (.of_same rfl rfl rfl le_rfl (.inr rfl))

/-- The timer starts at an ASSEMBLING or SKIPPING route alone (R41). -/
theorem TableKept.startIdleTimer : TableKept c s (s.startIdleTimer r) := by
  unfold State.startIdleTimer
  split
  · exact .refl c s
  · next busy =>
    exact .modifyRoute s r _ ⟨rfl, id, Iff.rfl, fun _ => id, fun _ idle => absurd idle busy, id⟩

theorem TableKept.returnSegments (n : Nat) : TableKept c s (s.returnSegments r n) :=
  .of_frame (returnSegments_frame s r n)
    (entries := fun _ => OnlyRoute.entries (fun _ hk => State.route_returnSegments_ne s n hk) (by
      rw [State.route_returnSegments_self]
      exact .of_same rfl rfl rfl (Nat.sub_le _ _) (.inl rfl)))

theorem TableKept.modifyPort (f : Port → Port) (h : (s.port p).RoutesNoMore (f (s.port p))) :
    TableKept c s (s.modifyPort p f) :=
  .of_frame (modifyPort_frame s p f)
    (packets := fun _ => (modifyPort_onlyPort s p f).packets (by rw [State.port_modifyPort_self]; exact h))

theorem TableKept.countPort (f : PortCounters → PortCounters) : TableKept c s (s.countPort p f) :=
  .modifyPort s p _ (.of_eq rfl)

theorem TableKept.raise (info : NoticeInfo) : TableKept c s (s.raise info) := .of_same rfl rfl rfl rfl

theorem TableKept.countTrunk (f : TrunkCounters → TrunkCounters) : TableKept c s (s.countTrunk f) :=
  .of_same rfl rfl rfl rfl

theorem TableKept.countSource (src : Source) (f : SourceCounters → SourceCounters) :
    TableKept c s (s.countSource src f) := by
  cases src <;> exact .of_same rfl rfl rfl rfl

theorem TableKept.takeDescriptors (n : Nat) : TableKept c s (s.takeDescriptors n) := .of_same rfl rfl rfl rfl

theorem TableKept.enqueue (n : Nat) (body : RecordBody) : TableKept c s (s.enqueue r n body) :=
  .of_frame (enqueue_frame s r n body) (queue := fun _ => List.prefix_append _ _)

theorem TableKept.finish : TableKept c s s.finish := .of_frame (finish_frame s)

end Updates

/-! ## Gates and the ends of frames -/

section Frames
variable {c : Prop} {s t : State} {r : Fin 64}

theorem TableKept.of_ended {reason : AbortReason} (h : FrameEnded s t r reason) (other : reason ≠ .disabled) :
    TableKept c s t := by
  obtain ⟨same, only, entry, queue, -, -⟩ := h
  exact .of_frame same (entries := fun _ => only.entries (entry ▸ .ended _ other))
    (queue := fun _ => queue ▸ List.prefix_append _ _)

theorem TableKept.endIngressFrame (s : State) (r : Fin 64) {reason : AbortReason} (other : reason ≠ .disabled) :
    TableKept c s (s.endIngressFrame r reason) := .of_ended (endIngressFrame_spec s r reason) other

theorem TableKept.abort (s : State) (r : Fin 64) {reason : AbortReason} (other : reason ≠ .disabled) :
    TableKept c s (s.abort r reason) := by
  rcases h : (s.route r).assembly with _ | ⟨frame, line⟩ | _
  · simpa [State.abort, h] using TableKept.refl c s
  · exact .of_ended (abort_spec s r reason frame line h) other
  · simpa [State.abort, h] using TableKept.refl c s

/-- A visit of the routes of a port leaves the table kept, whatever it does to its port. -/
theorem PortVisited.entries {p : Fin 4} {reason : AbortReason} {last : List NoticeInfo}
    (h : PortVisited s t p reason last) (other : reason ≠ .disabled) (k : Fin 64) :
    (s.route k).Kept c (t.route k) := by
  obtain ⟨mine, others, -, -, -⟩ := h
  by_cases hk : portOf k = p
  · rw [mine k hk]; exact .ended _ other
  · rw [others k hk]; exact .refl c _

theorem PortVisited.queue {p : Fin 4} {reason : AbortReason} {last : List NoticeInfo}
    (h : PortVisited s t p reason last) : s.queue <+: t.queue := by
  obtain ⟨-, -, queue, -, -⟩ := h
  exact queue ▸ List.prefix_append _ _

theorem TableKept.visitRoutes (s : State) (p : Fin 4) {reason : AbortReason} (other : reason ≠ .disabled) :
    TableKept c s (s.visitRoutes p reason) :=
  .of_frame (visitRoutes_frame s p reason) (entries := fun _ => (visitRoutes_spec s p reason).entries other)
    (queue := fun _ => (visitRoutes_spec s p reason).queue)

theorem TableKept.fireHoldPoint (s : State) (r : Fin 64) (frame : Nat) (h : HoldPoint) :
    TableKept c s (s.fireHoldPoint r frame h) :=
  (TableKept.modifyRoute s r _ (.of_same rfl rfl rfl le_rfl (.inl rfl))).trans (.raise _ _)

@[simp] theorem route_fireHoldPoint_assembly (s : State) (r : Fin 64) (frame : Nat) (h : HoldPoint) :
    ((s.fireHoldPoint r frame h).route r).assembly = (s.route r).assembly := by
  simp [State.fireHoldPoint]

@[simp] theorem route_forceGate_assembly (s : State) (r : Fin 64) :
    ((s.forceGate r).route r).assembly = (s.route r).assembly := by
  unfold State.forceGate
  split <;> simp

/-- FORCE makes CLOSING of OPEN under an open frame (R100). -/
theorem TableKept.forceGate (inFrame : (s.route r).isAssembling = true) : TableKept c s (s.forceGate r) := by
  unfold State.forceGate
  split
  · next opened =>
    exact .modifyRoute s r _ (.moveGate (by simp [opened]) (by simp) (fun _ => inFrame) (by simp))
  · exact .refl c s

/-- The gate of a route without an open frame becomes SHUT (R93). -/
theorem TableKept.shutGate (out : (s.route r).isAssembling = false) (reason : ShutReason) (frame : Option Nat) :
    TableKept c s (s.shutGate r reason frame) := by
  have shut (served : (s.route r).gate ≠ .disabled) :
      TableKept c s ((s.modifyRoute r fun x => { x with gate := .shut }).raise (.routeShut r reason frame)) :=
    (TableKept.modifyRoute s r _ (.moveGate served (by simp) (by simp) fun _ => out)).trans (.raise _ _)
  unfold State.shutGate
  split
  · next h => exact shut (by simp [h])
  · next h => exact shut (by simp [h])
  · next h => exact shut (by simp [h])
  · exact .refl c s
  · exact .refl c s

theorem freeLine_onlyRoute (s : State) (r : Fin 64) : OnlyRoute s (s.freeLine r) r := fun k hk => by
  rw [State.route_freeLine, if_neg hk]

theorem shutGate_onlyRoute (s : State) (r : Fin 64) (reason : ShutReason) (frame : Option Nat) :
    OnlyRoute s (s.shutGate r reason frame) r := by
  unfold State.shutGate
  split
  all_goals first
    | exact (modifyRoute_onlyRoute s r _).trans ((raise_frame _ _).onlyRoute r)
    | exact fun _ _ => rfl

theorem frameEndStep_onlyRoute (s : State) (r : Fin 64) (frame : Nat) : OnlyRoute s (s.frameEndStep r frame) r := by
  unfold State.frameEndStep
  split
  · exact shutGate_onlyRoute s r _ _
  · exact shutGate_onlyRoute s r _ _
  · exact fun _ _ => rfl

theorem route_frameEndStep (s : State) (r : Fin 64) (frame : Nat) :
    (s.frameEndStep r frame).route r = { s.route r with gate := (s.route r).gate.afterClose } := by
  rcases gate : (s.route r).gate <;> simp [State.frameEndStep, State.shutGate, Gate.afterClose, gate]
  all_goals rw [← gate]

/-- The line in assembly is freed: the frame goes on without it (R81). -/
theorem TableKept.freeLine (s : State) (r : Fin 64) : TableKept c s (s.freeLine r) := by
  refine .of_frame (freeLine_frame s r) (entries := fun _ => (freeLine_onlyRoute s r).entries ?_)
  rw [State.route_freeLine, if_pos rfl]
  rcases assembly : (s.route r).assembly with _ | ⟨frame, line⟩ | _
  · exact .of_same rfl rfl assembly.symm (Nat.sub_le _ _) (.inl rfl)
  · refine .of_assembling assembly rfl rfl rfl (fun law => (Nat.sub_le _ _).trans law)
      fun ⟨lines, lines', bytes, bytes', received, forwarded⟩ => ⟨lines, lines', bytes, bytes', received, ?_⟩
    exact (Nat.add_le_add_left (Nat.zero_le _) _).trans forwarded
  · exact .of_same rfl rfl assembly.symm (Nat.sub_le _ _) (.inl rfl)

end Frames

/-! ## Headers -/

section Headers
variable {c : Prop} {s start : State} {p : Fin 4} {r : Fin 64} {frame frame' : OpenFrame}
  {line line' : Option LineInAssembly}

theorem route_setLine (new : LineInAssembly) (assembly : (s.route r).assembly = .assembling frame line) :
    (s.setLine r new).route r =
      { s.route r with
        heldSegments := (s.route r).heldSegments - (s.route r).lineSegments
        assembly := .assembling frame (some new) } := by
  simp [State.setLine, State.route_freeLine, assembly]

theorem setLine_onlyRoute (s : State) (r : Fin 64) (new : LineInAssembly) : OnlyRoute s (s.setLine r new) r := by
  unfold State.setLine
  refine (freeLine_onlyRoute s r).trans ?_
  dsimp only
  split
  · exact setAssembly_onlyRoute _ r _
  · exact fun _ _ => rfl

/-- The open frame changes, and its counts stay in order. -/
theorem TableKept.setFrame (assembly : (s.route r).assembly = .assembling frame line)
    (counted : frame.Counted line → frame'.Counted line') :
    TableKept c s (s.setAssembly r (.assembling frame' line')) :=
  .modifyRoute s r _ (.of_assembling assembly rfl rfl rfl id counted)

theorem TableKept.testLong (s : State) (p : Fin 4) (r : Fin 64) (header : PacketHeader) :
    TableKept c s (s.testLong p r header) := by
  unfold State.testLong
  repeat' split
  · refine (TableKept.modifyPort s p _ fun packet held routed => ?_).trans (.countPort _ p _)
    obtain ⟨old, was, rfl⟩ := Option.map_eq_some_iff.1 held
    exact ⟨old, was, routed, rfl⟩
  · exact .refl c s
  · exact .refl c s

/-- A packet takes its segments within the cap, or its frame aborts (R53, R70, R78). The line that a line packet
becomes has been received since `start`. -/
theorem TableKept.allocate {header : PacketHeader} (kept : TableKept c start s)
    (assembly : (s.route r).assembly = .assembling frame line)
    (room : (start.route r).FrameCounts → isLineCode header.code = true → frame.forwarded + 1 ≤ frame.received) :
    TableKept c start (s.allocate p r header) := by
  unfold State.allocate
  dsimp only
  generalize segmentsFor header.length = n
  split
  · next resources =>
    refine TableKept.trans (t := ((s.setLine r { code := header.code, segments := n, payload := [] }).takeSegments r
      n).takeDescriptors 1) ?_ (.testLong _ p r header)
    obtain ⟨-, cap, -⟩ := canAllocate_iff.1 resources
    have frame' := ((setLine_frame s r { code := header.code, segments := n, payload := [] }).trans
      (takeSegments_frame _ r n)).trans ((takeDescriptors_frame _ 1).mono (by decide))
    have only := ((setLine_onlyRoute s r { code := header.code, segments := n, payload := [] }).trans
      fun k hk => State.route_takeSegments_ne _ n hk).trans ((takeDescriptors_frame _ 1).onlyRoute r)
    have entry := kept.entries r
    refine ⟨fun k => ?_, fun q => ?_, ?_, ?_⟩
    · by_cases hk : k = r
      · subst hk
        rw [State.takeDescriptors_route, State.route_takeSegments_self, route_setLine _ assembly]
        exact
          { config := entry.config
            held := fun _ => by
              rw [← entry.config]
              exact (Nat.add_le_add_right (Nat.sub_le _ _) n).trans cap
            service := entry.service
            gate := fun hc law => by
              simpa [Route.GateLaw, Route.isAssembling, assembly] using entry.gate hc law
            timer := fun _ idle => by cases idle
            counts := fun law => by
              obtain ⟨lines, lines', bytes, bytes', received, forwarded⟩ :=
                (frameCounts_iff assembly).1 (entry.counts law)
              refine (frameCounts_iff rfl).2 ⟨lines, lines', bytes, bytes', received, ?_⟩
              unfold lineInHand
              dsimp only
              split
              · next isLine => exact room law isLine
              · exact (Nat.add_le_add_left (Nat.zero_le _) _).trans forwarded }
      · rw [only k hk]
        exact kept.entries k
    · rw [frame'.port q]; exact kept.packets q
    · rw [frame'.queue]; exact kept.queue
    · rw [frame'.link]; exact kept.epoch
  · exact kept.trans ((TableKept.abort s r (by decide)).trans (.countRoute _ r _))

theorem TableKept.filterPacket {header : PacketHeader} (kept : TableKept c start s)
    (assembly : (s.route r).assembly = .assembling frame line)
    (room : (start.route r).FrameCounts → isLineCode header.code = true → frame.forwarded + 1 ≤ frame.received) :
    TableKept c start (s.filterPacket p r header) := by
  unfold State.filterPacket
  dsimp only
  split
  · exact kept.trans (.countRoute s r _)
  · exact kept.allocate assembly room

/-- A line within the declared lines is received, one beyond them marks the frame OVERRUN (R51). -/
theorem TableKept.countLine {header : PacketHeader} (assembly : (s.route r).assembly = .assembling frame line) :
    TableKept c s (s.countLine p r header frame) := by
  unfold State.countLine
  simp only [State.modifyFrame, assembly]
  split
  · split
    · next declared =>
      refine TableKept.filterPacket (frame := { frame with received := frame.received + 1 }) (line := line)
        (.setFrame assembly ?_) (by simp) fun law _ => ?_
      · rintro ⟨lines, lines', bytes, bytes', received, forwarded⟩
        exact ⟨lines, lines', bytes, bytes', declared, forwarded.trans (Nat.le_succ _)⟩
      · obtain ⟨-, -, -, -, -, forwarded⟩ := (frameCounts_iff assembly).1 law
        exact Nat.succ_le_succ ((Nat.le_add_right _ _).trans forwarded)
    · exact (TableKept.setFrame (frame' := { frame with overrun := true }) (line' := line) assembly id).trans
        (.countRoute _ r _)
  · next side => exact TableKept.filterPacket (.refl c s) assembly fun _ isLine => absurd isLine side

theorem TableKept.assembleHeader {header : PacketHeader} (assembly : (s.route r).assembly = .assembling frame line) :
    TableKept c s (s.assembleHeader p r header frame) := by
  unfold State.assembleHeader
  split
  · next h _ =>
    refine (TableKept.fireHoldPoint s r frame.number h).trans ?_
    have fired := (route_fireHoldPoint_assembly s r frame.number h).trans assembly
    dsimp only
    split
    · exact (TableKept.abort _ r (by decide)).trans (.countRoute _ r _)
    · exact (TableKept.forceGate (isAssembling_of_eq fired)).trans
        (.countLine ((route_forceGate_assembly _ r).trans fired))
  · exact .countLine assembly

theorem TableKept.routeHeader (s : State) (p : Fin 4) (r : Fin 64) (header : PacketHeader) :
    TableKept c s (s.routeHeader p r header) := by
  unfold State.routeHeader
  refine (TableKept.stopIdleTimer s r).trans ?_
  dsimp only
  split
  · exact .refl c _
  · split
    · next assembly => exact .assembleHeader assembly
    · exact .countRoute _ r _
    · exact .countRoute _ r _

/-- A packet that begins with another disposition than TO_ROUTE comes to no route (R10). -/
theorem TableKept.begun (s : State) (p : Fin 4) (f : PacketHeader) {d : Disposition} (away : d ≠ .toRoute) :
    TableKept c s (s.begun p f d) :=
  .of_frame (begun_frame s p f d)
    (packets := fun _ => (begun_onlyPort s p f d).packets (by
      rw [s.port_begun p f d]
      exact .of_away rfl away))

/-- A packet that begins with disposition TO_ROUTE finds its route in service (R10). -/
theorem PartKept.begun (s : State) (p : Fin 4) (f : PacketHeader)
    (served : (s.route (routeOf p f.channel)).gate ≠ .disabled) : PartKept s (s.begun p f .toRoute) := by
  have frame := begun_frame s p f .toRoute
  have route := fun r => frame.route r
  refine ⟨⟨fun law r => route r ▸ law r, fun law r k => by rw [route, route]; exact law r k, ?_,
    fun law r => route r ▸ law r, fun law r => route r ▸ law r⟩, frame.queue ▸ List.prefix_rfl,
    fun r => by rw [route], by rw [frame.link]⟩
  rintro ⟨gates, routed⟩
  refine ⟨fun r => route r ▸ gates r, fun q packet header held disposition some => ?_⟩
  rw [route]
  by_cases hq : q = p
  · subst hq
    rw [s.port_begun q f .toRoute] at held
    obtain rfl := Option.some.inj held
    obtain rfl : f = header := Option.some.inj some
    exact served
  · rw [begun_onlyPort s p f .toRoute q hq] at held
    exact routed q packet header held disposition some

theorem PartKept.headerArrives (s : State) (p : Fin 4) (header : Header) :
    PartKept s (s.headerArrives p header) := by
  by_cases passes : headerPasses header = true
  · rw [headerArrives_eq passes]
    dsimp only
    split
    · exact ((TableKept.begun s p _ (by decide)).trans (.countPort _ p _)).part
    · split
      · exact ((TableKept.begun s p _ (by decide)).trans (.countPort _ p _)).part
      · next served => exact (PartKept.begun s p _ served).trans (TableKept.routeHeader _ p _ _).part
  · rw [State.headerArrives, if_neg passes]
    exact ((TableKept.modifyPort s p _ (.of_away rfl (by simp [newReception]))).trans (.countPort _ p _)).part

/-- Bytes are collected in the line in assembly and in the packet's record (R11, R12). -/
theorem TableKept.bytesArrive (s : State) (p : Fin 4) (bytes : List Byte) : TableKept c s (s.bytesArrive p bytes) := by
  rcases held : (s.port p).reception with _ | x
  · rw [State.bytesArrive, held]
    exact .refl c s
  · rw [bytesArrive_eq held]
    have frame : SameBut s (s.bytesAtRoute p x bytes) [.routes] := bytesAtRoute_frame
    refine TableKept.trans ?_ (.modifyPort _ p _ (.of_some (old := x) (by rw [frame.port, held]) rfl rfl rfl))
    unfold State.bytesAtRoute State.writePayload
    split
    · split
      · next assembly => exact .setFrame assembly id
      · exact .refl c s
    · exact .refl c s

end Headers

/-! ## The ends of packets -/

/-- The declarations of an opening mark are in range (R13). -/
def OpeningMark.Good (mark : OpeningMark) : Prop :=
  1 ≤ mark.declaredLines ∧ mark.declaredLines ≤ 4095 ∧ 1 ≤ mark.declaredBytes ∧ mark.declaredBytes ≤ 8192

theorem openingMark_good {x : Reception} {header : PacketHeader} {mark : OpeningMark}
    (h : x.openingMark header = some mark) : mark.Good := by
  unfold Reception.openingMark at h
  split at h
  · simp only [Option.ite_none_right_eq_some, Option.some.injEq, Bool.and_eq_true, decide_eq_true_eq] at h
    obtain ⟨⟨⟨⟨-, lines⟩, lines'⟩, bytes⟩, bytes'⟩ := h.1
    exact h.2 ▸ ⟨lines, lines', bytes, bytes'⟩
  · cases h

section Ends
variable {c : Prop} {s : State} {r : Fin 64} {mark : OpeningMark} {frame : OpenFrame} {line : LineInAssembly}

/-- A frame is admitted at a gate OPEN or STEPPING, with the counts of a frame that has received nothing (R45, R47). -/
theorem TableKept.admitFrame (good : mark.Good) (tried : (s.route r).gate = .opened ∨ (s.route r).gate = .stepping) :
    TableKept c s (s.admitFrame r mark) := by
  obtain ⟨lines, lines', bytes, bytes'⟩ := good
  have entry : (s.route r).Kept c
      { s.route r with
        assembly := .assembling (mark.openFrame (s.route r).config.mode) none
        idleTimer := .running (s.route r).config.idleLimit
        refusalRun := false
        counters := { (s.route r).counters with
          framesAdmitted := bump (s.route r).counters.framesAdmitted } } :=
    { config := rfl
      held := id
      service := Iff.rfl
      gate := fun _ _ => ⟨fun _ => rfl, by rcases tried with h | h <;> simp [h], by
        rcases tried with h | h <;> simp [h]⟩
      timer := fun _ idle => by cases idle
      counts := fun _ => (frameCounts_iff rfl).2 ⟨lines, lines', bytes, bytes', Nat.zero_le _, le_rfl⟩ }
  have only : OnlyRoute s (s.admitFrame r mark) r :=
    ((((takeDescriptors_frame s 2).onlyRoute r).trans ((enqueue_frame _ r _ _).onlyRoute r)).trans
      (setAssembly_onlyRoute _ r _)).trans (modifyRoute_onlyRoute _ r _)
  refine .of_frame (admit_frame s r mark) (entries := fun _ => only.entries ?_)
    (queue := fun _ => List.prefix_append _ _)
  simpa [State.admitFrame] using entry

theorem TableKept.refuseFrame (out : (s.route r).isAssembling = false) (served : c → (s.route r).gate ≠ .disabled) :
    TableKept c s (s.refuseFrame r mark) := by
  unfold State.refuseFrame
  dsimp only
  split
  · exact .modifyRoute s r _ (.skip out served rfl rfl rfl rfl)
  · exact (TableKept.modifyRoute s r _ (.skip out served rfl rfl rfl rfl)).trans (.raise _ _)

theorem TableKept.holdOff (out : (s.route r).isAssembling = false) (served : c → (s.route r).gate ≠ .disabled) :
    TableKept c s (s.holdOff r) :=
  (TableKept.modifyRoute s r _ (.skip out served rfl rfl rfl rfl)).trans (.countRoute _ r _)

theorem route_shutGate_assembly (s : State) (r : Fin 64) (reason : ShutReason) (frame : Option Nat) :
    ((s.shutGate r reason frame).route r).assembly = (s.route r).assembly := by
  unfold State.shutGate
  split <;> simp

/-- A frame that is tried at a gate OPEN or STEPPING: held off behind a TAG, admitted or refused (R46 to R48). -/
theorem TableKept.tryFrame (good : mark.Good) (out : (s.route r).isAssembling = false)
    (tried : (s.route r).gate = .opened ∨ (s.route r).gate = .stepping) (fired : Option HoldPoint) :
    TableKept c s (s.tryFrame r mark fired) := by
  have served : (s.route r).gate ≠ .disabled := by rcases tried with h | h <;> simp [h]
  have admitted : ((s.admitFrame r mark).route r).isAssembling = true := by
    simp [State.admitFrame, Route.isAssembling]
  unfold State.tryFrame
  split
  · have shut := TableKept.shutGate (c := c) out .tag (some mark.number)
    refine shut.trans (.holdOff ?_ fun _ => mt (shut.entries r).service.1 served)
    rwa [Route.isAssembling, route_shutGate_assembly, ← Route.isAssembling]
  · split
    · exact (TableKept.admitFrame good tried).trans (.forceGate admitted)
    · exact .refuseFrame out fun _ => served
  · split
    · exact .admitFrame good tried
    · exact .refuseFrame out fun _ => served

theorem TableKept.meetGate (good : mark.Good) (out : (s.route r).isAssembling = false)
    (served : c → (s.route r).gate ≠ .disabled) (fired : Option HoldPoint) :
    TableKept c s (s.meetGate r mark fired) := by
  unfold State.meetGate
  split
  · next h => exact .tryFrame good out (.inl h) fired
  · next h => exact .tryFrame good out (.inr h) fired
  all_goals exact .holdOff out served

/-- A good opening mark keeps the laws, the gate law at a route in service (R43 to R49). -/
theorem TableKept.openingMark (good : mark.Good) :
    TableKept ((s.route r).gate ≠ .disabled) s (s.openingMark r mark) := by
  have fire : TableKept ((s.route r).gate ≠ .disabled) s
      (s.fire r mark.number ((s.route r).firedByMark mark.number)) := by
    unfold State.fire
    split
    · exact .fireHoldPoint s r _ _
    · exact .refl _ s
  have ended := fire.trans (.endIngressFrame _ r (reason := .truncated) (by decide))
  refine ended.trans (.meetGate good ?_ (fun h => mt (ended.entries r).service.1 h) _)
  obtain ⟨-, -, entry, -, -, -⟩ :=
    endIngressFrame_spec (s.fire r mark.number ((s.route r).firedByMark mark.number)) r .truncated
  rw [entry]
  exact ended_out _ _

/-- A line that is forwarded was received, and now it is not in assembly any more (R58). -/
theorem TableKept.forward (assembly : (s.route r).assembly = .assembling frame (some line))
    (damagedLines damaged long : Bool) :
    TableKept c s (s.forward r { frame with damagedLines } line damaged long) := by
  obtain ⟨same, only, queue, entry⟩ := forward_spec (s := s) (r := r) (frame := { frame with damagedLines })
    (line := line) (damaged := damaged) (long := long)
  refine .of_frame same (entries := fun _ => only.entries ?_) (queue := fun _ => queue ▸ List.prefix_append _ _)
  rw [entry]
  refine .of_assembling assembly rfl rfl rfl id
    fun ⟨lines, lines', bytes, bytes', received, forwarded⟩ => ⟨lines, lines', bytes, bytes', received, ?_⟩
  simp only [lineInHand, isLineCode_eq_true] at forwarded ⊢
  split <;> simp_all

theorem TableKept.applyPolicy (assembly : (s.route r).assembly = .assembling frame (some line)) (long : Bool) :
    TableKept c s (s.applyPolicy r frame line long) := by
  unfold State.applyPolicy
  split
  · exact .abort s r (by decide)
  · exact (TableKept.forward assembly true true long).trans (.countRoute _ r _)

theorem TableKept.damagedLine (assembly : (s.route r).assembly = .assembling frame (some line)) (long : Bool) :
    TableKept c s (s.damagedLine r frame line long) := by
  unfold State.damagedLine
  split
  · next h _ =>
    refine (TableKept.fireHoldPoint s r frame.number h).trans ?_
    have fired := (route_fireHoldPoint_assembly s r frame.number h).trans assembly
    dsimp only
    split
    · exact .abort _ r (by decide)
    · exact (TableKept.forceGate (isAssembling_of_eq fired)).trans
        (.applyPolicy ((route_forceGate_assembly _ r).trans fired) long)
  · exact .applyPolicy assembly long

theorem TableKept.packetEnd (s : State) (r : Fin 64) (damaged long : Bool) :
    TableKept c s (s.packetEnd r damaged long) := by
  unfold State.packetEnd
  split
  · next frame line assembly =>
    split
    · exact .damagedLine assembly long
    · exact .forward assembly frame.damagedLines false false
  · exact .refl c s

/-- The last steps of a closing mark: the frame is over, the timer stops, and the gate takes its step (R60). -/
theorem TableKept.leaveFrame (s : State) (r : Fin 64) (number : Nat) :
    TableKept c s (((s.setAssembly r .idle).stopIdleTimer r).frameEndStep r number) := by
  have same := ((setAssembly_frame s r .idle).trans (stopIdleTimer_frame _ r)).mono (by decide) |>.trans
    (frameEndStep_frame _ r number)
  have only := ((setAssembly_onlyRoute s r .idle).trans (stopIdleTimer_onlyRoute _ r)).trans
    (frameEndStep_onlyRoute _ r number)
  refine .of_frame same (entries := fun _ => only.entries ?_)
  rw [route_frameEndStep, State.route_stopIdleTimer_self, State.route_setAssembly_self]
  exact .of_out rfl rfl le_rfl (afterClose_eq_disabled _) (fun _ => rfl)
    fun _ _ => ⟨afterClose_ne_closing _, fun _ => rfl⟩

theorem TableKept.closeFrame (s : State) (r : Fin 64) (frame : OpenFrame) (number : Nat) :
    TableKept c s (s.closeFrame r frame number) :=
  (((TableKept.freeLine s r).trans (.enqueue _ r 0 _)).trans (.countRoute _ r _)).trans (.leaveFrame _ r _)

/-- A closing mark closes the frame, or ends a skip: no CLOSING gate has one (R60, R61). -/
theorem TableKept.closingMark (s : State) (r : Fin 64) (number : Nat) : TableKept c s (s.closingMark r number) := by
  unfold State.closingMark
  split
  · exact .closeFrame s r _ number
  · next skipping =>
    refine TableKept.trans ?_ (.countRoute _ r _)
    refine .of_frame ((setAssembly_frame s r .idle).trans (stopIdleTimer_frame _ r)) (entries := fun _ =>
      ((setAssembly_onlyRoute s r .idle).trans (stopIdleTimer_onlyRoute _ r)).entries ?_)
    rw [State.route_stopIdleTimer_self, State.route_setAssembly_self]
    refine .of_out rfl rfl le_rfl Iff.rfl (fun _ => rfl) fun _ ⟨closing, _, _⟩ => ⟨fun d => ?_, fun _ => rfl⟩
    have := closing d
    simp [Route.isAssembling, skipping] at this
  · exact .countRoute s r _

/-- The end of a TO_ROUTE packet at a route in service (R12, R13, R41). -/
theorem TableKept.endAtRoute (s : State) (p : Fin 4) (x : Reception) (header : PacketHeader) :
    TableKept ((s.route (routeOf p header.channel)).gate ≠ .disabled) s (s.endAtRoute p x header) := by
  unfold State.endAtRoute
  dsimp only
  refine TableKept.trans ?_ (.startIdleTimer _ _)
  split
  · split
    · next good => exact .openingMark (openingMark_good good)
    · exact .countPort s p _
  · split
    · split
      · exact .closingMark s _ _
      · exact .countPort s p _
    · split
      · exact .packetEnd s _ _ _
      · exact (TableKept.countPort s p _).trans (.packetEnd _ _ _ _)

/-- The route of a TO_ROUTE packet is in service, so that every packet end keeps every law (R10, R14). -/
theorem PartKept.packetEnds (s : State) (p : Fin 4) : PartKept s (s.packetEnds p) := by
  rcases held : (s.port p).reception with _ | x
  · rw [State.packetEnds, held]
    exact .refl s
  · by_cases routed : x.disposition = .toRoute ∧ ∃ header, x.header = some header
    · obtain ⟨disposition, header, fields⟩ := routed
      have e : s.packetEnds p = (s.dropPacket p).endAtRoute p x header := by
        simp only [State.packetEnds, held, disposition, fields]; rfl
      have dropped : TableKept ((s.route (routeOf p header.channel)).gate ≠ .disabled) s (s.dropPacket p) :=
        .modifyPort s p _ (.of_none rfl)
      have kept := dropped.trans (.endAtRoute (s.dropPacket p) p x header)
      rw [e]
      exact ⟨kept.laws fun law => law.2 p x header held disposition fields, kept.untouched⟩
    · refine TableKept.part ?_
      simp only [State.packetEnds, held]
      refine (TableKept.modifyPort s p (fun y => { y with reception := none }) (.of_none rfl)).trans ?_
      split
      · next disposition fields => exact absurd ⟨disposition, _, fields⟩ routed
      · split
        · exact .countPort _ p _
        · exact .refl _ _
      · exact .refl _ _

end Ends

end Sys2Proof.Machine
end

section
/-! SUPPORT. The laws of the route table over the port events, the control port, the trunk, part resets and the
execution rows, but ROUTE_WRITE, ROUTE_ENABLE and ROUTE_DISABLE, which have a section of their own. -/

namespace Sys2Proof.Machine

-- One theorem after another, as in the model's tests.
set_option Elab.async false

/-! ## Ports -/

section Ports
variable {c : Prop} (s : State) (p : Fin 4)

theorem TableKept.alignmentLost : TableKept c s (s.alignmentLost p) := by
  by_cases active : (s.port p).state = .active
  · rw [alignmentLost_active s p active]
    refine TableKept.trans (t := s.portDown p) ?_ ((TableKept.visitRoutes _ p (by decide)).trans (.raise _ _))
    exact .of_frame (portDown_frame s p)
      (packets := fun _ => (portDown_onlyPort s p).packets (.of_none (by rw [s.port_portDown p])))
  · have e : s.alignmentLost p = s.modifyPort p fun x => { x with aligned := false, reception := none } := by
      unfold State.alignmentLost
      split
      · next h => exact absurd h active
      · rfl
    rw [e]
    exact .modifyPort s p _ (.of_none rfl)

theorem TableKept.setPortMode (enable : Bool) (lanes : Lanes) : TableKept c s (s.setPortMode p enable lanes) := by
  by_cases off : (s.port p).state = .off
  · obtain ⟨frame, only, set⟩ := setPortMode_off (enable := enable) (lanes := lanes) off
    refine .of_frame frame (packets := fun _ => only.packets ?_)
    rw [set]
    split
    · exact .of_none rfl
    · exact .of_eq rfl
  · cases enable
    · obtain ⟨frame, only, set, visited⟩ := setPortMode_disabled (lanes := lanes) off
      exact .of_frame frame (entries := fun _ => visited.entries (by decide)) (queue := fun _ => visited.queue)
        (packets := fun _ => only.packets (.of_none (by rw [set])))
    · rw [setPortMode_enabled off]
      exact .refl c s

end Ports

/-! ## The control port and the executor -/

section ControlPort
variable {c : Prop} (s : State) (src : Source)

theorem TableKept.modifyReceiver (f : Receiver → Receiver) : TableKept c s (s.modifyReceiver f) :=
  .of_same rfl rfl rfl rfl

theorem TableKept.discardFraming : TableKept c s s.discardFraming :=
  (TableKept.modifyReceiver s _).trans (.countSource _ _ _)

theorem TableKept.judgeRecord (covered check : List Byte) : TableKept c s (s.judgeRecord src covered check) := by
  cases src <;> exact .of_frame (judgeRecord_frame s _ covered check)

theorem TableKept.recordCharacter (character : Byte) : TableKept c s (s.recordCharacter character) := by
  unfold State.recordCharacter
  dsimp only
  split
  · split
    · exact .modifyReceiver s _
    · exact .discardFraming s
  · exact .modifyReceiver s _
  · split
    · exact (TableKept.modifyReceiver s _).trans (.judgeRecord _ _ _ _)
    · exact .modifyReceiver s _

theorem TableKept.character (character : Byte) (stopBit : Bool) :
    TableKept c s (s.character character stopBit) := by
  unfold State.character State.idleCharacter
  split
  · split
    · exact .modifyReceiver s _
    · exact .countSource s _ _
  · split
    · exact .recordCharacter s character
    · exact .discardFraming s

theorem TableKept.expireLease : TableKept c s s.expireLease := by
  unfold State.expireLease
  split
  · refine TableKept.trans ?_ (.raise _ _)
    refine TableKept.trans ?_ (.countSource _ _ _)
    exact .of_same rfl rfl rfl rfl
  · exact .of_same rfl rfl rfl rfl

theorem TableKept.takeRecord : TableKept c s (s.takeRecord src) := by
  cases src <;> exact .of_frame (takeRecord_frame s _)

theorem TableKept.modifySource (f : SourceState → SourceState) : TableKept c s (s.modifySource src f) := by
  cases src <;> exact .of_frame (modifySource_frame s _ f)

theorem TableKept.reply (r : Reply) : TableKept c s (s.reply src r) :=
  ((TableKept.modifySource s src _).trans (.countSource _ src _)).trans (.of_frame (restartLease_frame _ src))

end ControlPort

/-! ## The trunk -/

section Trunk
variable {c : Prop} (s : State)

theorem TableKept.dropLock : TableKept c s s.dropLock := .of_frame (dropLock_frame s)

/-- The moves of the link leave its epoch (R127). -/
theorem TableKept.enterTraining : TableKept c s s.enterTraining :=
  .of_frame (enterTraining_frame s) (epoch := fun _ => rfl)

theorem TableKept.enterDown : TableKept c s s.enterDown := .of_frame (enterDown_frame s) (epoch := fun _ => rfl)

theorem TableKept.enterHalted : TableKept c s s.enterHalted :=
  .of_frame (enterHalted_frame s) (epoch := fun _ => rfl)

theorem TableKept.takeGrant (rest : List Byte) : TableKept c s (s.takeGrant rest) := by
  unfold State.takeGrant
  split
  · split
    · exact .of_same rfl rfl rfl rfl
    · exact .countTrunk s _
  · exact .countTrunk s _

theorem TableKept.takeRemote (rest : List Byte) : TableKept c s (s.takeRemote rest) := by
  unfold State.takeRemote
  dsimp only
  split
  · split
    · exact .judgeRecord s _ _ _
    · exact .countSource s _ _
  · exact .countSource s _ _

theorem TableKept.acknowledge (rest : List Byte) : TableKept c s (s.acknowledge rest) := by
  unfold State.acknowledge
  split
  · split
    · split
      · exact .of_same rfl rfl rfl rfl
      · exact .refl c s
    · exact .countTrunk s _
  · exact .countTrunk s _

theorem TableKept.loseSignal : TableKept c s s.loseSignal :=
  (((TableKept.dropLock s).trans (.enterDown _)).trans (.countTrunk _ _)).trans (.raise _ _)

theorem TableKept.expireStall : TableKept c s s.expireStall := .of_same rfl rfl rfl rfl

theorem TableKept.haltLink : TableKept c s s.haltLink := by
  unfold State.haltLink
  dsimp only
  refine ((TableKept.dropLock s).trans (.enterHalted _)).trans ?_
  split
  · exact .refl c _
  · exact .countTrunk _ _

theorem TableKept.retrainLink : TableKept c s s.retrainLink :=
  ((TableKept.dropLock s).trans (.enterTraining _)).trans (.countTrunk _ _)

/-- The head leaves the queue, and its segments leave the held ones of its route (R80, R114). -/
theorem LawsKept.recordSent : LawsKept s s.recordSent := by
  unfold State.recordSent
  split
  · next record rest _ =>
    have left : LawsKept s { s with queue := rest }.returnDescriptor := ⟨id, id, id, id, id⟩
    exact left.trans (((TableKept.returnSegments (c := True) _ _ _).trans (.countTrunk _ _)).laws fun _ => trivial)
  · exact .refl s

/-- Sending the head moves no other record. -/
theorem recordSent_queue (s : State) :
    s.recordSent.queue = s.queue ∨ ∃ record, s.queue = record :: s.recordSent.queue := by
  unfold State.recordSent
  split
  · next record rest h => exact .inr ⟨record, h⟩
  · exact .inl rfl

end Trunk

/-! ## Part resets -/

/-- Every entry after a part reset is the one of R18. -/
theorem route_partReset (s : State) (cause : ResetCause) (epoch : Nat) (straps : Straps) (r : Fin 64) :
    (s.partReset cause epoch straps).route r = Route.reset r := by
  simp [State.partReset, State.blank, State.route]

theorem port_partReset (s : State) (cause : ResetCause) (epoch : Nat) (straps : Straps) (p : Fin 4) :
    (s.partReset cause epoch straps).port p = Port.reset := by
  simp [State.partReset, State.blank, State.port]

theorem routeReset_configured (r : Fin 64) : (Route.reset r).Configured r := by
  simp [Route.Configured, RouteConfig.InRange, RouteConfig.KeepsSealedRule, Route.reset, RouteConfig.reset]

/-- After a part reset every route is DISABLED and IDLE, and no packet is in reception (R18, R164). -/
theorem LawsKept.partReset (s : State) (cause : ResetCause) (epoch : Nat) (straps : Straps) :
    LawsKept s (s.partReset cause epoch straps) where
  configured _ r := by rw [route_partReset]; exact routeReset_configured r
  clashFree _ r k _ inService := by rw [route_partReset] at inService; exact absurd rfl inService
  gates _ := by
    refine ⟨fun r => ?_, fun p packet _ held => ?_⟩
    · rw [route_partReset]
      exact ⟨fun h => by simp [Route.reset] at h, fun h => by simp [Route.reset] at h, fun _ => rfl⟩
    · rw [port_partReset] at held
      simp [Port.reset] at held
  timers _ r := by rw [route_partReset]; exact fun _ => rfl
  counts _ r := by rw [route_partReset]; exact frameCounts_of_out rfl

/-- What an event does that may take a part reset: it is taken, or the queue, the table and the epoch are kept. -/
def ResetOrKept (s t : State) : Prop := PartKept s t ∨ (LawsKept s t ∧ t.queue = [])

section Reset
variable {s t u : State}

theorem ResetOrKept.laws (h : ResetOrKept s t) : LawsKept s t := h.elim (·.toLawsKept) And.left

theorem PartKept.thenReset (h : PartKept s t) (k : ResetOrKept t u) : ResetOrKept s u :=
  k.imp h.trans fun ⟨laws, empty⟩ => ⟨h.toLawsKept.trans laws, empty⟩

theorem ResetOrKept.partReset (s : State) (cause : ResetCause) (epoch : Nat) (straps : Straps) :
    ResetOrKept s (s.partReset cause epoch straps) := .inr ⟨.partReset s cause epoch straps, rfl⟩

theorem ResetOrKept.finish (h : ResetOrKept s t) : ResetOrKept s t.finish := by
  have finished : PartKept t t.finish := (TableKept.finish t).part
  refine h.imp (·.trans finished) fun ⟨laws, empty⟩ => ⟨laws.trans finished.toLawsKept, ?_⟩
  rw [(finish_frame t).queue, empty]

theorem ResetOrKept.resetAfterReply (s : State) (src : Source) (straps : Straps) :
    ResetOrKept s (s.resetAfterReply src straps) := by
  unfold State.resetAfterReply
  split
  · split
    · exact .partReset s _ _ _
    · exact .inl (.refl s)
  · exact .inl (.refl s)

theorem ResetOrKept.expireGrace (s : State) (straps : Straps) : ResetOrKept s (s.expireGrace straps) := by
  unfold State.expireGrace
  split
  · exact .partReset s _ _ _
  · exact .inl (.refl s)

theorem ResetOrKept.completePort (s : State) (straps : Straps) : ResetOrKept s (s.completePort straps) := by
  unfold State.completePort
  dsimp only
  split
  · exact .inl (.refl s)
  · refine PartKept.thenReset ?_ (.resetAfterReply _ _ straps)
    exact .of_same rfl rfl rfl rfl
  · exact .inl (.of_same rfl rfl rfl rfl)

/-- The fall of RESET_N ends every reception, so that no packet comes to a route (R163). -/
theorem TableKept.holdInReset {c : Prop} (s : State) (line : ResetLine) : TableKept c s (s.holdInReset line) where
  entries r := .refl c _
  packets p := .of_none (by simp [State.holdInReset, State.port])
  queue := List.prefix_rfl
  epoch := rfl

/-- A completion on the trunk other than a stream record's. -/
theorem ResetOrKept.completeTrunk (straps : Straps) (other : s.sender.inFlight ≠ .stream) :
    ResetOrKept s (s.completeTrunk straps) := by
  unfold State.completeTrunk
  dsimp only
  split
  · exact .inl (.refl s)
  · next h => exact absurd h other
  · refine PartKept.thenReset ?_ (.resetAfterReply _ _ straps)
    exact .of_same rfl rfl rfl rfl
  · exact .inl (.of_same rfl rfl rfl rfl)

end Reset

/-! ## Executions -/

/-- A command keeps the part. -/
def KeepsPart (run : Source → List Byte → State → Execution) : Prop :=
  ∀ src args s, PartKept s (run src args s).state

/-- A command that reports and changes nothing. -/
theorem KeepsPart.of_report {run : Source → List Byte → State → Execution}
    (h : ∀ src args s, (run src args s).state = s) : KeepsPart run :=
  fun src args s => by rw [h]; exact .refl s

theorem KeepsPart.of_table {run : Source → List Byte → State → Execution}
    (h : ∀ src args s, TableKept True s (run src args s).state) : KeepsPart run :=
  fun src args s => (h src args s).part

theorem PartKept.refused {s : State} {status : Status} {details : List Byte} :
    PartKept s (refuse s status details).state := .refl s

theorem TableKept.refused {c : Prop} {s : State} {status : Status} {details : List Byte} :
    TableKept c s (refuse s status details).state := .refl c s

theorem TableKept.succeeded {c : Prop} {s t : State} {results : List Byte} (h : TableKept c s t) :
    TableKept c s (succeed t results).state := h

theorem unknownCommand_part : KeepsPart unknownCommand := .of_report fun _ _ _ => rfl

theorem identify_part : KeepsPart identify := .of_report fun _ _ _ => by
  unfold identify; split <;> rfl

theorem portStatus_part : KeepsPart portStatus := .of_report fun _ _ _ => by
  unfold portStatus; repeat' split
  all_goals rfl

theorem routeRead_part : KeepsPart routeRead := .of_report fun _ _ _ => by
  unfold routeRead; repeat' split
  all_goals rfl

theorem tableScan_part : KeepsPart tableScan := .of_report fun _ _ _ => by
  unfold tableScan; split <;> rfl

theorem trunkStatus_part : KeepsPart trunkStatus := .of_report fun _ _ _ => by
  unfold trunkStatus; split <;> rfl

/-! The commands of the lease, the pool and the notices, which leave the table, the ports, the queue and the link. -/

theorem claim_part : KeepsPart claim := .of_table fun src args s => by
  unfold claim; repeat' split
  all_goals exact .of_same rfl rfl rfl rfl

theorem drop_part : KeepsPart drop := .of_table fun src args s => by
  unfold drop; repeat' split
  all_goals exact .of_same rfl rfl rfl rfl

theorem leaseTime_part : KeepsPart leaseTime := .of_table fun src args s => by
  unfold leaseTime; repeat' split
  all_goals exact .of_same rfl rfl rfl rfl

theorem resetPart_part : KeepsPart resetPart := .of_table fun src args s => by
  unfold resetPart; repeat' split
  all_goals exact .of_same rfl rfl rfl rfl

theorem poolStatus_part : KeepsPart poolStatus := .of_table fun src args s => by
  unfold poolStatus; repeat' split
  all_goals exact .of_same rfl rfl rfl rfl

theorem noticeAck_part : KeepsPart noticeAck := .of_table fun src args s => by
  unfold noticeAck; repeat' split
  all_goals exact .of_same rfl rfl rfl rfl

theorem noticeReplay_part : KeepsPart noticeReplay := .of_table fun src args s => by
  unfold noticeReplay; repeat' split
  all_goals exact .of_same rfl rfl rfl rfl

theorem noticeMask_part : KeepsPart noticeMask := .of_table fun src args s => by
  unfold noticeMask; repeat' split
  all_goals exact .of_same rfl rfl rfl rfl

theorem noticeRoute_part : KeepsPart noticeRoute := .of_table fun src args s => by
  unfold noticeRoute; repeat' split
  all_goals exact .of_same rfl rfl rfl rfl

theorem portSet_part : KeepsPart portSet := .of_table fun src args s => by
  unfold portSet
  repeat' split
  all_goals first
    | exact .refused
    | exact .succeeded (.setPortMode s _ _ _)

/-- HOLD, RELEASE and STEP do what their gate move does (R88). -/
theorem gateCommand_part {move : State → Fin 64 → Option State}
    (h : ∀ s r t, move s r = some t → TableKept True s t) : KeepsPart (gateCommand move) :=
  .of_table fun src args s => by
    unfold gateCommand
    dsimp only
    repeat' split
    all_goals first
      | exact .refused
      | exact .succeeded (h s _ _ ‹_›)

/-- HOLD makes CLOSING of a gate under an open frame, and SHUT of one without (R89). -/
theorem holdGate_table (s : State) (r : Fin 64) (t : State) (h : holdGate s r = some t) : TableKept True s t := by
  have closing {frame : OpenFrame} {line : Option LineInAssembly} (served : (s.route r).gate ≠ .disabled)
      (assembly : (s.route r).assembly = .assembling frame line) :
      TableKept True s (s.modifyRoute r fun x => { x with gate := .closing }) :=
    .modifyRoute s r _ (.moveGate served (by simp) (fun _ => isAssembling_of_eq assembly) (by simp))
  unfold holdGate at h
  split at h
  · next opened =>
    split at h
    · next assembly => exact Option.some.inj h ▸ closing (by simp [opened]) assembly
    · next out => exact Option.some.inj h ▸ .shutGate (isAssembling_of_ne out) _ _
  · next stepping =>
    split at h
    · next assembly => exact Option.some.inj h ▸ closing (by simp [stepping]) assembly
    · next out => exact Option.some.inj h ▸ .shutGate (isAssembling_of_ne out) _ _
  · exact Option.some.inj h ▸ .refl True s
  · exact Option.some.inj h ▸ .refl True s
  · cases h

theorem releaseGate_table (s : State) (r : Fin 64) (t : State) (h : releaseGate s r = some t) :
    TableKept True s t := by
  unfold releaseGate at h
  split at h
  · cases h
  · next served =>
    exact Option.some.inj h ▸ .modifyRoute s r _ (.moveGate served (by simp) (by simp) (by simp))

theorem stepGate_table (s : State) (r : Fin 64) (t : State) (h : stepGate s r = some t) : TableKept True s t := by
  unfold stepGate at h
  split at h
  · next shut =>
    exact Option.some.inj h ▸ .modifyRoute s r _ (.moveGate (by simp [shut]) (by simp) (by simp) (by simp))
  · cases h

/-- No law speaks of a hold point (R96, R97). -/
theorem TableKept.setHoldPoint {c : Prop} (s : State) (r : Fin 64) (holdPoint : Option HoldPoint) :
    TableKept c s (s.modifyRoute r fun x => { x with holdPoint }) :=
  .modifyRoute s r _ (.of_same rfl rfl rfl le_rfl (.inl rfl))

theorem holdpointSet_part : KeepsPart holdpointSet := .of_table fun src args s => by
  unfold holdpointSet
  dsimp only
  repeat' split
  all_goals first
    | exact .refused
    | exact .succeeded (.setHoldPoint s _ _)

theorem holdpointClear_part : KeepsPart holdpointClear := .of_table fun src args s => by
  unfold holdpointClear
  repeat' split
  all_goals first
    | exact .refused
    | exact .succeeded (.setHoldPoint s _ _)

theorem trunkHalt_part : KeepsPart trunkHalt := .of_table fun src args s => by
  unfold trunkHalt
  repeat' split
  · exact .haltLink s
  all_goals exact .refused

theorem trunkStart_part : KeepsPart trunkStart := .of_table fun src args s => by
  unfold trunkStart
  repeat' split
  · exact .enterTraining s
  all_goals exact .refused

theorem trunkRetrain_part : KeepsPart trunkRetrain := .of_table fun src args s => by
  unfold trunkRetrain
  repeat' split
  · exact .retrainLink s
  · exact .retrainLink s
  all_goals exact .refused

theorem TableKept.clearSet {c : Prop} (s : State) (set : CounterScope) : TableKept c s (s.clearSet set) := by
  unfold State.clearSet
  split
  · exact .countRoute s _ _
  · exact .countPort s _ _
  · exact .countTrunk s _
  · exact .countSource s _ _

theorem countersRead_part : KeepsPart countersRead := .of_table fun src args s => by
  unfold countersRead
  repeat' split
  all_goals first
    | exact .refused
    | exact .succeeded (.clearSet s _)

end Sys2Proof.Machine
end

section
/-! The reads of the part, and the route commands ROUTE_ENABLE, ROUTE_DISABLE and ROUTE_WRITE (R25, R26, R28 to R36).
-/

namespace Sys2Proof.Machine

-- One theorem after another, as in the model's tests.
set_option Elab.async false

/-! ## Reads of the part -/

/-- The table in ascending route number. -/
theorem routes_toList (s : State) : s.routes.toList = (List.finRange 64).map s.route :=
  List.ext_getElem (by simp) fun i _ _ => by simp [State.route]

/-- Settles O28: the reports are the layouts above, read from the part that took the record. -/
theorem partReadsReport : Obligations.PartReadsReport := by
  intro s src record
  refine ⟨fun serves arguments => ?_, fun serves arguments => ?_, fun serves arguments => ?_,
    fun serves arguments => ?_⟩
  · rw [exec_identify serves, answerOf, arguments]
    have rate : (s.takeRecord src).rate = s.rate := by cases src <;> rfl
    have cause : (s.takeRecord src).resetCause = s.resetCause := by cases src <;> rfl
    simp only [identify, List.isEmpty_nil, if_true, succeed, State.identity, State.takeRecord_link,
      State.takeRecord_lease, rate, cause]
    rfl
  · refine ⟨s.routesInService, (List.pairwise_lt_finRange 64).filter _, fun r => by simp [State.routesInService], ?_⟩
    rw [exec_tableScan serves, answerOf, arguments]
    have scan : (s.takeRecord src).routesInService = s.routesInService := by simp [State.routesInService]
    have entry : (s.takeRecord src).scanEntry =
        fun r => [byte r.val, byte (s.route r).config.trunkChannel, (s.route r).gate.code] :=
      funext fun r => by simp [State.scanEntry]
    simp only [tableScan, List.isEmpty_nil, if_true, succeed, scan, entry]
  · rw [exec_poolStatus serves, answerOf, arguments]
    simp only [poolStatus, readFlag, beq_self_eq_true, if_true, succeed, State.poolReport, State.takeRecord_pool,
      State.takeRecord_routes, State.takeRecord_queue, routes_toList, List.flatMap_map,
      State.sumRoutes_congr (s.takeRecord_routes src)]
  · rw [exec_trunkStatus serves, answerOf, arguments]
    have remote : (s.takeRecord src).sourceRemote.slot = s.sourceRemote.slot := by cases src <;> rfl
    simp only [trunkStatus, List.isEmpty_nil, if_true, succeed, State.trunkReport, State.takeRecord_link,
      State.takeRecord_sender, State.takeRecord_queue, remote]
    rcases s.sender.inFlight with _ | _ | _ | sequence <;>
      simp [InFlight.code, InFlight.sequence, word16, byte]

/-! ## Refusals -/

section Refusals
variable {i : Instr} {run : Source → List Byte → State → Execution} {s : State} {src : Source} {record : CommandRecord}

/-- A row whose command is refused. -/
theorem refuses_of_run {status : Status} {details : List Byte} (answers : exec i s = .next (answerOf run s src record))
    (refused : run src record.arguments (s.takeRecord src) = refuse (s.takeRecord src) status details) :
    Refuses i s src record status details := by
  rw [Refuses, answers, answerOf, refused]; rfl

theorem holdsLease_takeRecord (holder : s.lease.holder = some src) : (s.takeRecord src).holdsLease src = true := by
  rw [takeRecord_holdsLease]; exact decide_eq_true holder

theorem not_holdsLease_takeRecord (other : s.lease.holder ≠ some src) : (s.takeRecord src).holdsLease src = false := by
  rw [takeRecord_holdsLease]; exact decide_eq_false other

/-- A lease command over one route number makes its first three checks in their order (R155, R181). -/
theorem leaseChecks_of_run {code : Byte}
    (answers : ∀ {s src record}, Serves s src record code → exec i s = .next (answerOf run s src record))
    (noLease : ∀ {src args s}, s.holdsLease src = false → run src args s = refuse s .noLease [])
    (badLength : ∀ {src args s}, s.holdsLease src = true → args.length ≠ 1 → run src args s = refuse s .badLength [])
    (badArg : ∀ {src r s}, s.holdsLease src = true → readRoute r = none → run src [r] s = refuse s .badArg []) :
    LeaseChecks i code 1 routeOutOfRange := by
  refine fun s src record serves => ⟨fun other => ?_, fun holder length => ?_, fun holder _ ⟨r, one, out⟩ => ?_⟩
  · exact refuses_of_run (answers serves) (noLease (not_holdsLease_takeRecord other))
  · exact refuses_of_run (answers serves) (badLength (holdsLease_takeRecord holder) length)
  · exact refuses_of_run (answers serves)
      (one ▸ badArg (holdsLease_takeRecord holder) (readRoute_eq_none out))

end Refusals

/-! ## The two laws of the table -/

/-- An entry breaks no condition of the sealed rule exactly when it keeps the rule (R25). -/
theorem sealedBreach_eq_none {config : RouteConfig} {r : Fin 64} :
    config.sealedBreach r = none ↔ config.KeepsSealedRule r := by
  obtain ⟨trunkChannel, mode, filter, overrideCode, _, _, _, _⟩ := config
  cases mode
  · simp [RouteConfig.sealedBreach, RouteConfig.KeepsSealedRule]
  · cases filter <;> cases overrideCode <;> simp [RouteConfig.sealedBreach, RouteConfig.KeepsSealedRule]

/-- The condition that an entry breaks first (R25, R29). -/
theorem sealedBreach_of_broken {config : RouteConfig} {r : Fin 64} (broken : ¬ config.KeepsSealedRule r) :
    config.sealedBreach r =
      some (if config.filter ≠ [] then 1 else if config.overrideCode ≠ none then 2 else 3) := by
  rw [← sealedBreach_eq_none] at broken
  obtain ⟨trunkChannel, mode, filter, overrideCode, _, _, _, _⟩ := config
  cases mode
  · simp [RouteConfig.sealedBreach] at broken
  · cases filter <;> cases overrideCode <;> simp_all [RouteConfig.sealedBreach]

section Holder
variable {s : State} {r k : Fin 64} {channel : Nat}

/-- No other route in service holds the channel (R26). -/
theorem channelHolder_eq_none :
    s.channelHolder r channel = none ↔
      ∀ k, k ≠ r → (s.route k).gate ≠ .disabled → (s.route k).config.trunkChannel ≠ channel := by
  simp [State.channelHolder]

/-- The lowest other route in service that holds the channel (R26). -/
theorem channelHolder_eq_some (other : k ≠ r) (inService : (s.route k).gate ≠ .disabled)
    (holds : (s.route k).config.trunkChannel = channel)
    (lowest : ∀ j, j < k → j ≠ r → (s.route j).gate ≠ .disabled → (s.route j).config.trunkChannel ≠ channel) :
    s.channelHolder r channel = some k := by
  refine List.find?_eq_some_iff_getElem.2 ⟨by simp [other, inService, holds], k.val, by simp, by simp, fun j hj => ?_⟩
  have below : (⟨j, hj.trans k.isLt⟩ : Fin 64) < k := hj
  simpa [or_assoc, or_iff_not_imp_left] using lowest _ below

theorem channelHolder_takeRecord (s : State) (src : Source) (r : Fin 64) (channel : Nat) :
    (s.takeRecord src).channelHolder r channel = s.channelHolder r channel := by
  simp [State.channelHolder]

end Holder

/-! ## ROUTE_ENABLE -/

theorem routeEnable_checks : LeaseChecks .routeEnable 0x22 1 routeOutOfRange := by
  refine leaseChecks_of_run exec_routeEnable (fun h => by simp [routeEnable, h]) (fun {_ args _} h length => ?_)
    fun h out => by simp [routeEnable, h, out]
  simp only [routeEnable, h, if_true]
  split
  · exact absurd rfl length
  · rfl

section Enable
variable {s : State} {src : Source} {r : Fin 64}

/-- ROUTE_ENABLE of a route number in range by the lease holder, at a route in service (R31). -/
theorem routeEnable_inService (holds : s.holdsLease src = true) (served : (s.route r).gate ≠ .disabled) :
    routeEnable src [byte r.val] s = refuse s .wrongState [(s.route r).gate.code] := by
  simp [routeEnable, holds, readRoute_byte, served]

/-- At a DISABLED route whose trunk channel another route in service holds (R26, R31). -/
theorem routeEnable_clash {k : Fin 64} (holds : s.holdsLease src = true) (disabled : (s.route r).gate = .disabled)
    (held : s.channelHolder r (s.route r).config.trunkChannel = some k) :
    routeEnable src [byte r.val] s = refuse s .clash [byte k.val] := by
  simp [routeEnable, holds, readRoute_byte, disabled, held]

/-- At a DISABLED route whose trunk channel is free (R31). -/
theorem routeEnable_opens (holds : s.holdsLease src = true) (disabled : (s.route r).gate = .disabled)
    (free : s.channelHolder r (s.route r).config.trunkChannel = none) :
    routeEnable src [byte r.val] s =
      succeed (s.modifyRoute r fun x => { x with gate := .opened })
        [byte r.val, byte (s.route r).config.trunkChannel, Gate.opened.code] := by
  simp [routeEnable, holds, readRoute_byte, disabled, free]

end Enable

/-- Settles O37: the gate is looked at first, then the trunk channel. -/
theorem routeEnableOpensTheGate : Obligations.RouteEnableOpensTheGate := by
  refine ⟨routeEnable_checks, fun s src record r serves holder arguments => ?_⟩
  have holds := holdsLease_takeRecord holder
  have route := s.takeRecord_route src r
  have answers := exec_routeEnable serves
  refine ⟨fun disabled free => ?_, fun k disabled other inService same lowest => ?_, fun served => ?_⟩
  · have run := routeEnable_opens (r := r) holds (by rw [route]; exact disabled)
      (by rw [channelHolder_takeRecord, route]; exact channelHolder_eq_none.2 free)
    have only := modifyRoute_onlyRoute (s.takeRecord src) r fun x => { x with gate := .opened }
    refine ⟨(s.takeRecord src).modifyRoute r fun x => { x with gate := .opened }, ?_, modifyRoute_frame _ r _,
      fun k hk => (only k hk).trans (s.takeRecord_route src k), by simp⟩
    rw [answers, answerOf, arguments, run, route]; rfl
  · have run := routeEnable_clash (r := r) (k := k) holds (by rw [route]; exact disabled)
      (by rw [channelHolder_takeRecord, route]; exact channelHolder_eq_some other inService same lowest)
    exact refuses_of_run answers (arguments ▸ run)
  · have run := routeEnable_inService (r := r) holds (by rw [route]; exact served)
    rw [route] at run
    exact refuses_of_run answers (arguments ▸ run)

/-! ## ROUTE_DISABLE -/

theorem routeDisable_checks : LeaseChecks .routeDisable 0x23 1 routeOutOfRange := by
  refine leaseChecks_of_run exec_routeDisable (fun h => by simp [routeDisable, h]) (fun {_ args _} h length => ?_)
    fun h out => by simp [routeDisable, h, out]
  simp only [routeDisable, h, if_true]
  split
  · exact absurd rfl length
  · rfl

/-- ROUTE_DISABLE of a route number in range by the lease holder (R33). -/
theorem routeDisable_eq {s : State} {src : Source} (holds : s.holdsLease src = true) (r : Fin 64) :
    routeDisable src [byte r.val] s =
      succeed (if (s.route r).gate = .disabled then s else s.disableRoute r)
        ([byte r.val, (s.route r).gate.code, (s.route r).assembly.code] ++ (s.route r).assembly.abortedBytes) := by
  simp only [routeDisable, holds, if_true, readRoute_byte]

theorem abortedBytes_eq (assembly : Assembly) :
    assembly.abortedBytes =
      match assembly with
      | .assembling frame _ => 1 :: word16 frame.number ++ word16 frame.forwarded
      | _ => List.replicate 5 0 := by
  cases assembly <;> rfl

/-- Everything that taking a route out of service does (R14, R33, R34). -/
theorem disableRoute_spec (s : State) (r : Fin 64) :
    let b := s.disableRoute r
    let x := s.route r
    SameBut s b [.ports, .routes, .pool, .queue, .notices] ∧ OnlyPort s b (portOf r) ∧ OnlyRoute s b r ∧
    b.route r = { x.ended .disabled with gate := .disabled, refusalRun := false, idleTimer := .stopped } ∧
    b.queue = s.queue ++ x.endRecords r .disabled ∧
    b.pool = s.pool.freed x.lineSegments x.linesInAssembly ∧
    b.notices = s.notices.raiseAll (x.endNotices r .disabled) ∧
    b.port (portOf r) =
      { s.port (portOf r) with reception := (s.port (portOf r)).reception.map (·.unroute r) } := by
  obtain ⟨ended, only, entry, queue, pool, notices⟩ := endIngressFrame_spec s r .disabled
  have stopped := stopIdleTimer_frame (s.endIngressFrame r .disabled) r
  refine ⟨?_, ?_, ?_, ?_, queue, pool, notices, ?_⟩
  · exact (((ended.mono (by decide)).trans (stopped.mono (by decide))).trans
      ((modifyRoute_frame _ r _).mono (by decide))).trans ((modifyPort_frame _ _ _).mono (by decide))
  · exact (((ended.onlyPort _).trans (stopped.onlyPort _)).trans ((modifyRoute_frame _ r _).onlyPort _)).trans
      (modifyPort_onlyPort _ _ _)
  · exact ((only.trans (stopIdleTimer_onlyRoute _ r)).trans (modifyRoute_onlyRoute _ r _)).trans
      ((modifyPort_frame _ _ _).onlyRoute r)
  · simp [State.disableRoute, entry]
  · simp [State.disableRoute, ended.port]

/-- Settles O38: `disableRoute_spec` at the part that took the record. -/
theorem routeDisableTakesOutOfService : Obligations.RouteDisableTakesOutOfService := by
  refine ⟨routeDisable_checks, fun s src record r serves holder arguments => ?_⟩
  have answer : exec .routeDisable s = _ := exec_routeDisable serves
  rw [answerOf, arguments, routeDisable_eq (holdsLease_takeRecord holder), s.takeRecord_route src r,
    abortedBytes_eq] at answer
  refine ⟨fun disabled => ?_, fun served => ?_⟩
  · rw [answer, if_pos disabled]; rfl
  · rw [if_neg served] at answer
    obtain ⟨frame, ports, routes, entry, queue, pool, notices, port⟩ := disableRoute_spec (s.takeRecord src) r
    rw [s.takeRecord_route src r] at entry queue pool notices
    rw [s.takeRecord_port src (portOf r)] at port
    refine ⟨(s.takeRecord src).disableRoute r, answer, frame, fun k hk => (ports k hk).trans (s.takeRecord_port src k),
      fun k hk => (routes k hk).trans (s.takeRecord_route src k), entry, ?_, ?_, ?_, ?_, ?_⟩
    · rw [queue, s.takeRecord_queue]
    · rw [pool, s.takeRecord_pool]
    · rw [notices, s.takeRecord_notices]
    · rw [port]; rfl
    · rw [port]

/-! ## ROUTE_WRITE -/

section Write
variable {s : State} {src : Source} {r : Fin 64} {edit : RouteEdit} {config : RouteConfig}

/-- The checks of ROUTE_WRITE that come before the entry is looked at (R29 checks 1 and 2). -/
theorem routeWrite_noLease {args : List Byte} (other : s.holdsLease src = false) :
    routeWrite src args s = refuse s .noLease [] := by simp [routeWrite, other]

theorem routeWrite_tooShort {args : List Byte} (holds : s.holdsLease src = true) (short : args.length < 2) :
    routeWrite src args s = refuse s .badLength [] := by
  match args, short with
  | [], _ => simp [routeWrite, holds]
  | [_], _ => simp [routeWrite, holds]

theorem routeWrite_namesNothing {route : Byte} {values : List Byte} (holds : s.holdsLease src = true) :
    routeWrite src (route :: 0 :: values) s = refuse s .badArg [] := by simp [routeWrite, holds]

theorem routeWrite_badLength {route selection : Byte} {values : List Byte} (holds : s.holdsLease src = true)
    (names : selection ≠ 0) (unread : readEdit selection values = none) :
    routeWrite src (route :: selection :: values) s = refuse s .badLength [] := by
  simp only [routeWrite, holds, if_true, if_neg names, unread]

/-- Arguments that spell an edit that names a field, for a route number above 63 (R29 check 3). -/
theorem routeWrite_noRoute {route : Byte} (holds : s.holdsLease src = true) (spellable : edit.Spellable)
    (names : edit.selection ≠ 0) (out : readRoute route = none) :
    routeWrite src (route :: edit.selection :: edit.values) s = refuse s .badArg [] := by
  simp only [routeWrite, holds, if_true, if_neg names, readEdit_eq_some.2 ⟨spellable, rfl, rfl⟩, out]

/-- For a route, with a value out of range (R29 check 3). -/
theorem routeWrite_outOfRange (holds : s.holdsLease src = true) (spellable : edit.Spellable)
    (names : edit.selection ≠ 0) (outside : (s.route r).config.edited edit = none) :
    routeWrite src (byte r.val :: edit.selection :: edit.values) s = refuse s .badArg [] := by
  simp only [routeWrite, holds, if_true, if_neg names, readEdit_eq_some.2 ⟨spellable, rfl, rfl⟩,
    readRoute_byte, outside]

/-- For a route, with every value in range: the entry is looked at (R29 checks 4 to 7). -/
theorem routeWrite_ranged (holds : s.holdsLease src = true) (spellable : edit.Spellable) (names : edit.selection ≠ 0)
    (edited : (s.route r).config.edited edit = some config) :
    routeWrite src (byte r.val :: edit.selection :: edit.values) s = writeRoute s r config := by
  simp only [routeWrite, holds, if_true, if_neg names, readEdit_eq_some.2 ⟨spellable, rfl, rfl⟩,
    readRoute_byte, edited]

/-- Checks 4 and 5 of R29. -/
theorem writeRoute_wrongGate (disabled : (s.route r).gate ≠ .disabled) (shut : (s.route r).gate ≠ .shut) :
    writeRoute s r config = refuse s .wrongState [byte r.val, (s.route r).gate.code] := by
  simp [writeRoute, disabled, shut]

theorem writeRoute_overCap (gate : (s.route r).gate = .disabled ∨ (s.route r).gate = .shut)
    (exceeds : config.cap < (s.route r).heldSegments) :
    writeRoute s r config =
      refuse s .wrongState ([byte r.val, (s.route r).gate.code] ++ word16 (s.route r).heldSegments) := by
  rcases gate with h | h <;> simp [writeRoute, h, exceeds]

/-- Check 6 of R29. -/
theorem writeRoute_breach {condition : Byte} (gate : (s.route r).gate = .disabled ∨ (s.route r).gate = .shut)
    (cap : (s.route r).heldSegments ≤ config.cap) (breach : config.sealedBreach r = some condition) :
    writeRoute s r config = refuse s .sealedRule [byte r.val, (s.route r).gate.code, condition] := by
  rcases gate with h | h <;> simp [writeRoute, h, Nat.not_lt.2 cap, breach]

/-- The route in service that a write of a trunk channel to a SHUT route clashes with, if one does (R29 check 7). -/
def State.clashOf (s : State) (r : Fin 64) (channel : Nat) : Option (Fin 64) :=
  if (s.route r).gate = .shut ∧ channel ≠ (s.route r).config.trunkChannel then s.channelHolder r channel else none

/-- A write clashes with none exactly when the route is not SHUT, or the channel is its own or free. -/
theorem clashOf_eq_none {channel : Nat} :
    s.clashOf r channel = none ↔
      ((s.route r).gate = .shut → channel ≠ (s.route r).config.trunkChannel →
        ∀ k, k ≠ r → (s.route k).gate ≠ .disabled → (s.route k).config.trunkChannel ≠ channel) := by
  rw [State.clashOf, ← channelHolder_eq_none]
  split
  · next h => exact ⟨fun free _ _ => free, fun free => free h.1 h.2⟩
  · next h => exact ⟨fun _ shut changed => absurd ⟨shut, changed⟩ h, fun _ => rfl⟩

theorem clashOf_changed {channel : Nat} (shut : (s.route r).gate = .shut)
    (changed : channel ≠ (s.route r).config.trunkChannel) : s.clashOf r channel = s.channelHolder r channel :=
  if_pos ⟨shut, changed⟩

theorem clashOf_takeRecord (s : State) (src : Source) (r : Fin 64) (channel : Nat) :
    (s.takeRecord src).clashOf r channel = s.clashOf r channel := by
  simp [State.clashOf, channelHolder_takeRecord]

/-- Check 7 of R29. -/
theorem writeRoute_clash {k : Fin 64} (gate : (s.route r).gate = .disabled ∨ (s.route r).gate = .shut)
    (cap : (s.route r).heldSegments ≤ config.cap) (rule : config.KeepsSealedRule r)
    (clash : s.clashOf r config.trunkChannel = some k) :
    writeRoute s r config = refuse s .clash [byte r.val, (s.route r).gate.code, byte k.val] := by
  have served : ¬ ((s.route r).gate ≠ .disabled ∧ (s.route r).gate ≠ .shut) := fun h => gate.elim h.1 h.2
  unfold State.clashOf at clash
  simp only [writeRoute, if_neg served, if_neg (Nat.not_lt.2 cap), sealedBreach_eq_none.2 rule, clash,
    List.cons_append, List.nil_append]

/-- The write of R30. -/
theorem writeRoute_writes (gate : (s.route r).gate = .disabled ∨ (s.route r).gate = .shut)
    (cap : (s.route r).heldSegments ≤ config.cap) (rule : config.KeepsSealedRule r)
    (free : s.clashOf r config.trunkChannel = none) :
    writeRoute s r config =
      succeed (s.modifyRoute r fun x => { x with config })
        ([byte r.val, (s.route r).gate.code] ++ config.block) := by
  have served : ¬ ((s.route r).gate ≠ .disabled ∧ (s.route r).gate ≠ .shut) := fun h => gate.elim h.1 h.2
  unfold State.clashOf at free
  simp only [writeRoute, if_neg served, if_neg (Nat.not_lt.2 cap), sealedBreach_eq_none.2 rule, free,
    State.route_modifyRoute_self]

end Write

/-- Settles O33: no check refuses, and the write is the modification of the entry. -/
theorem routeWriteWrites : Obligations.RouteWriteWrites := by
  intro s src record r edit config serves holder spellable names arguments
  dsimp only
  intro edited gate cap rule free
  have route := s.takeRecord_route src r
  have run := (routeWrite_ranged (holdsLease_takeRecord holder) spellable names (route.symm ▸ edited)).trans
    (writeRoute_writes (route.symm ▸ gate) (route.symm ▸ cap) rule
      ((clashOf_takeRecord s src r _).trans (clashOf_eq_none.2 free)))
  have only := modifyRoute_onlyRoute (s.takeRecord src) r fun x => { x with config }
  refine ⟨(s.takeRecord src).modifyRoute r fun x => { x with config }, ?_, modifyRoute_frame _ r _,
    fun k hk => (only k hk).trans (s.takeRecord_route src k), by simp⟩
  rw [exec_routeWrite serves, answerOf, arguments, run, route]; rfl

/-- Settles O34: each check refuses as the lemmas above say. -/
theorem routeWriteIsRefusedInOrder : Obligations.RouteWriteIsRefusedInOrder := by
  refine ⟨fun s src record serves => ⟨fun other => ?_, fun holder => ⟨fun short => ?_, fun r selection values given =>
    ⟨fun nothing => ?_, fun names unspelled => ?_, fun edit spellable selected spelled names out => ?_⟩⟩⟩,
    fun s src record r edit serves holder spellable names arguments => ?_⟩
  · exact refuses_of_run (exec_routeWrite serves) (routeWrite_noLease (not_holdsLease_takeRecord other))
  all_goals
    have holds := holdsLease_takeRecord holder
    have answers := exec_routeWrite serves
  · exact refuses_of_run answers (routeWrite_tooShort holds short)
  · subst nothing
    exact refuses_of_run answers (given ▸ routeWrite_namesNothing holds)
  · have unread : readEdit selection values = none := by
      by_contra h
      obtain ⟨edit, read⟩ := Option.ne_none_iff_exists'.1 h
      obtain ⟨spellable, selected, spelled⟩ := readEdit_eq_some.1 read
      exact unspelled edit spellable selected spelled
    exact refuses_of_run answers (given ▸ routeWrite_badLength holds names unread)
  · subst selected spelled
    exact refuses_of_run answers (given ▸ routeWrite_noRoute holds spellable names (readRoute_eq_none out))
  · have route := s.takeRecord_route src r
    refine ⟨fun outside => ?_, fun config edited => ?_⟩
    · exact refuses_of_run answers
        (arguments ▸ routeWrite_outOfRange holds spellable names (route.symm ▸ outside))
    · have run := routeWrite_ranged holds spellable names (route.symm ▸ edited)
      rw [← arguments] at run
      refine ⟨fun disabled shut => ?_, fun gate => ⟨fun exceeds => ?_, fun cap => ⟨fun broken => ?_,
        fun rule shut changed k other inService same lowest => ?_⟩⟩⟩
      · rw [writeRoute_wrongGate (route.symm ▸ disabled) (route.symm ▸ shut), route] at run
        exact refuses_of_run answers run
      · rw [writeRoute_overCap (route.symm ▸ gate) (route.symm ▸ exceeds), route] at run
        exact refuses_of_run answers run
      · rw [writeRoute_breach (route.symm ▸ gate) (route.symm ▸ cap) (sealedBreach_of_broken broken), route] at run
        exact refuses_of_run answers run
      · have clash : (s.takeRecord src).clashOf r config.trunkChannel = some k := by
          rw [clashOf_takeRecord, clashOf_changed shut changed]
          exact channelHolder_eq_some other inService same lowest
        rw [writeRoute_clash (route.symm ▸ gate) (route.symm ▸ cap) rule clash, route] at run
        exact refuses_of_run answers run

end Sys2Proof.Machine
end

section
/-! The laws of the route table and of its runtime fields over every step (R19, R21, R25, R26, R41, R51, R70, R87), and
what no event but its own moves (R107, R127): the three route commands that change a gate or a configuration, then all
rows. -/

namespace Sys2Proof.Machine

-- One theorem after another, as in the model's tests.
set_option Elab.async false

/-! ## The route commands -/

section Entry
variable {s t : State} {r : Fin 64}

/-- A change of one entry that is no move of `Route.Kept`: the clash rule asks that the entry's trunk channel is free
when the entry is in service then (R26). -/
theorem LawsKept.of_entry (only : OnlyRoute s t r) (configured : (s.route r).Configured r → (t.route r).Configured r)
    (free : s.ClashFree → (t.route r).gate ≠ .disabled → ∀ k, k ≠ r → (s.route k).gate ≠ .disabled →
      (s.route k).config.trunkChannel ≠ (t.route r).config.trunkChannel)
    (gate : (s.route r).GateLaw → (t.route r).GateLaw) (routed : s.RoutedInService → t.RoutedInService)
    (timer : (s.route r).TimerLaw → (t.route r).TimerLaw)
    (counts : (s.route r).FrameCounts → (t.route r).FrameCounts) : LawsKept s t := by
  have entries {law : Fin 64 → Route → Prop} (kept : law r (s.route r) → law r (t.route r))
      (all : ∀ k, law k (s.route k)) (k : Fin 64) : law k (t.route k) := by
    by_cases hk : k = r
    · subst hk; exact kept (all k)
    · rw [only k hk]; exact all k
  refine ⟨entries (law := fun k x => x.Configured k) configured, fun law j k ne => ?_,
    fun ⟨gates, packets⟩ => ⟨entries (law := fun _ x => x.GateLaw) gate gates, routed packets⟩,
    entries (law := fun _ x => x.TimerLaw) timer, entries (law := fun _ x => x.FrameCounts) counts⟩
  by_cases hj : j = r
  · subst hj
    rw [only k (Ne.symm ne)]
    exact fun served inService => (free law served k (Ne.symm ne) inService).symm
  · by_cases hk : k = r
    · subst hk
      rw [only j hj]
      exact fun inService served => free law served j hj inService
    · rw [only j hj, only k hk]
      exact law j k ne

/-- No packet in reception is a TO_ROUTE one of a route that is out of service, when the ports stay and no route in
service leaves it. -/
theorem routedInService_of_same (ports : t.ports = s.ports)
    (service : ∀ k, (s.route k).gate ≠ .disabled → (t.route k).gate ≠ .disabled) (routed : s.RoutedInService) :
    t.RoutedInService := fun p packet header held disposition some =>
  service _ (routed p packet header (by rwa [← State.port_congr ports]) disposition some)

end Entry

section Enable
variable {s : State} {r : Fin 64}

/-- A DISABLED route that opens on a free trunk channel (R26, R31). -/
theorem PartKept.enableRoute (disabled : (s.route r).gate = .disabled)
    (free : s.channelHolder r (s.route r).config.trunkChannel = none) :
    PartKept s (s.modifyRoute r fun x => { x with gate := .opened }) := by
  have only := modifyRoute_onlyRoute s r fun x => { x with gate := .opened }
  have entry := s.route_modifyRoute_self r fun x => { x with gate := .opened }
  refine ⟨.of_entry only (entry ▸ id) (fun _ _ => entry ▸ channelHolder_eq_none.1 free) (fun _ => ?_)
    (routedInService_of_same rfl fun k served => ?_) (entry ▸ id) (entry ▸ id), List.prefix_rfl, fun k => ?_, rfl⟩
  · rw [entry]
    exact ⟨nofun, nofun, nofun⟩
  · by_cases hk : k = r
    · subst hk; exact absurd disabled served
    · rwa [only k hk]
  · by_cases hk : k = r
    · subst hk; rw [entry]
    · rw [only k hk]

theorem routeEnable_part : KeepsPart routeEnable := fun src args s => by
  unfold routeEnable
  dsimp only
  repeat' split
  · exact .refused
  · exact .refused
  · exact .refused
  · next served _ free => exact .enableRoute (not_not.1 served) free
  · exact .refused
  · exact .refused

/-- The route of a packet on another port or another channel is another one (R18). -/
theorem routeOf_ne {p : Fin 4} {channel : Fin 16} (h : p = portOf r → channel ≠ channelOf r) :
    routeOf p channel ≠ r := fun e => by
  subst e
  have port : p = portOf (routeOf p channel) := Fin.ext (by simp only [portOf, routeOf]; omega)
  exact h port (Fin.ext (by simp only [channelOf, routeOf]; omega))

/-- A packet that is still TO_ROUTE after ROUTE_DISABLE was so before, and is another route's (R14). -/
theorem unroute_toRoute {x : Reception} {header : PacketHeader} (routed : (x.unroute r).disposition = .toRoute)
    (fields : (x.unroute r).header = some header) :
    x.disposition = .toRoute ∧ x.header = some header ∧ header.channel ≠ channelOf r := by
  unfold Reception.unroute at routed fields
  split at routed
  · cases routed
  · next other =>
    rw [if_neg other] at fields
    exact ⟨routed, fields, fun same => other ⟨routed, by simp [fields, same]⟩⟩

/-- A route taken out of service is IDLE with its timer stopped, and no packet in reception is its own (R14, R33). -/
theorem PartKept.disableRoute (s : State) (r : Fin 64) : PartKept s (s.disableRoute r) := by
  obtain ⟨frame, ports, only, entry, queue, -, -, port⟩ := disableRoute_spec s r
  have idle : ((s.route r).ended .disabled).assembly = .idle := by
    unfold Route.ended
    split
    · rfl
    · rfl
    · assumption
  have kept : ((s.route r).ended .disabled).config = (s.route r).config ∧
      ((s.route r).ended .disabled).heldSegments ≤ (s.route r).heldSegments := by
    unfold Route.ended
    split
    · exact ⟨rfl, Nat.sub_le _ _⟩
    · exact ⟨rfl, le_rfl⟩
    · exact ⟨rfl, le_rfl⟩
  obtain ⟨config, held⟩ := kept
  have out : ((s.disableRoute r).route r).isAssembling = false := by rw [entry]; simp [Route.isAssembling, idle]
  refine ⟨.of_entry only (fun ⟨range, isSealed, within⟩ => ?_) (fun _ served => ?_) (fun _ => ?_) (fun routed => ?_)
    (fun _ _ => by rw [entry]) fun _ => frameCounts_of_out out, queue ▸ List.prefix_append _ _, fun k => ?_,
    by rw [frame.link]⟩
  · rw [entry]
    simp only [Route.Configured, config]
    exact ⟨range, isSealed, held.trans within⟩
  · rw [entry] at served
    exact absurd rfl served
  · refine ⟨fun h => ?_, fun _ => out, fun _ => by rw [entry]; exact idle⟩
    rw [entry] at h
    cases h
  · intro p packet header here disposition some
    by_cases hp : p = portOf r
    · subst hp
      rw [port] at here
      obtain ⟨old, was, rfl⟩ := Option.map_eq_some_iff.1 here
      obtain ⟨disposition, some, channel⟩ := unroute_toRoute disposition some
      rw [only _ (routeOf_ne fun _ => channel)]
      exact routed _ old header was disposition some
    · rw [ports p hp] at here
      rw [only _ (routeOf_ne fun e => absurd e hp)]
      exact routed p packet header here disposition some
  · by_cases hk : k = r
    · subst hk; rw [entry]; exact config
    · rw [only k hk]

theorem routeDisable_part : KeepsPart routeDisable := fun src args s => by
  unfold routeDisable
  dsimp only
  repeat' split
  · exact .refused
  · exact .refl s
  · exact .disableRoute s _
  · exact .refused
  · exact .refused

end Enable

section Write
variable {s : State} {r : Fin 64} {edit : RouteEdit} {config result : RouteConfig}

/-- A write of an edit that arguments can spell leaves the entry's values in range (R19, R29). -/
theorem edited_inRange (edited : config.edited edit = some result) (spellable : edit.Spellable)
    (law : config.InRange) : result.InRange := by
  obtain ⟨trunkChannel, mode, filter, overrideCode, policy, cap, floor, idleLimit⟩ := edit
  obtain ⟨few, -, -, -⟩ := spellable
  obtain ⟨channel, short, nodup, codes, code, cap16, cap2048, -, idle1, idle1000⟩ := law
  obtain ⟨channel', -, filter', code', -, cap', -, idle', floor'⟩ :=
    (routeEditKeepsOtherFields config _ result).1 edited
  have inChannel : result.trunkChannel < 64 := by
    rcases trunkChannel with _ | b
    · exact channel' ▸ channel
    · dsimp only at channel'; omega
  have inFilter : result.filter.length ≤ 4 ∧ result.filter.Nodup ∧
      ∀ code ∈ result.filter, 0x08 ≤ code ∧ code ≤ 0x3F := by
    rcases filter with _ | b
    · exact filter' ▸ ⟨short, nodup, codes⟩
    · obtain ⟨values, nodup', codes'⟩ := filter'
      exact ⟨by rw [values, List.length_map]; exact few b rfl, nodup', codes'⟩
  have inOverride : ∀ code ∈ result.overrideCode, 0x10 ≤ code ∧ code ≤ 0x3F := by
    rcases overrideCode with _ | b
    · exact code' ▸ code
    · rcases code' with ⟨-, none⟩ | ⟨low, high, named⟩
      · simp [none]
      · simp [named, low, high]
  have inCap : 16 ≤ result.cap ∧ result.cap ≤ 2048 := by
    rcases cap with _ | n
    · exact cap' ▸ ⟨cap16, cap2048⟩
    · dsimp only at cap'; omega
  have inIdle : 1 ≤ result.idleLimit ∧ result.idleLimit ≤ 1000 := by
    rcases idleLimit with _ | n
    · exact idle' ▸ ⟨idle1, idle1000⟩
    · dsimp only at idle'; omega
  obtain ⟨short', nodup', codes'⟩ := inFilter
  obtain ⟨cap16', cap2048'⟩ := inCap
  exact ⟨inChannel, short', nodup', codes', inOverride, cap16', cap2048', floor', inIdle⟩

/-- A write that clashes with none keeps the trunk channels of the routes in service apart (R26, R29 check 7). -/
theorem channel_free_of_clashOf (accepted : s.clashOf r config.trunkChannel = none)
    (gate : (s.route r).gate = .disabled ∨ (s.route r).gate = .shut) (law : s.ClashFree)
    (served : (s.route r).gate ≠ .disabled) (k : Fin 64) (other : k ≠ r) (inService : (s.route k).gate ≠ .disabled) :
    (s.route k).config.trunkChannel ≠ config.trunkChannel := by
  by_cases same : config.trunkChannel = (s.route r).config.trunkChannel
  · rw [same]
    exact law k r other inService served
  · exact clashOf_eq_none.1 accepted (gate.resolve_left served) same k other inService

/-- An accepted write keeps the laws (R30). -/
theorem LawsKept.setConfig (range : (s.route r).config.InRange → config.InRange)
    (gate : (s.route r).gate = .disabled ∨ (s.route r).gate = .shut) (cap : (s.route r).heldSegments ≤ config.cap)
    (rule : config.KeepsSealedRule r) (accepted : s.clashOf r config.trunkChannel = none) :
    LawsKept s (s.modifyRoute r fun x => { x with config }) := by
  have only := modifyRoute_onlyRoute s r fun x => { x with config }
  have entry := s.route_modifyRoute_self r fun x => { x with config }
  refine .of_entry only (fun ⟨ranged, _, _⟩ => entry ▸ ⟨range ranged, rule, cap⟩) (fun law => ?_) (entry ▸ id)
    (routedInService_of_same rfl fun k served => ?_) (entry ▸ id) (entry ▸ id)
  · rw [entry]
    exact channel_free_of_clashOf accepted gate law
  · by_cases hk : k = r
    · subst hk; rwa [entry]
    · rwa [only k hk]

/-- A write that is refused leaves the part, and one that is accepted keeps the laws (R29, R30). -/
theorem writeRoute_kept (s : State) (range : (s.route r).config.InRange → config.InRange) :
    LawsKept s (writeRoute s r config).state ∧ SameBut s (writeRoute s r config).state [.routes] := by
  have same : LawsKept s s ∧ SameBut s s [.routes] := ⟨.refl s, .refl s _⟩
  by_cases gate : (s.route r).gate = .disabled ∨ (s.route r).gate = .shut
  · by_cases cap : (s.route r).heldSegments ≤ config.cap
    · rcases breach : config.sealedBreach r with _ | condition
      · have rule := sealedBreach_eq_none.1 breach
        rcases clash : s.clashOf r config.trunkChannel with _ | k
        · rw [writeRoute_writes gate cap rule clash]
          exact ⟨.setConfig range gate cap rule clash, modifyRoute_frame s r _⟩
        · rw [writeRoute_clash gate cap rule clash]; exact same
      · rw [writeRoute_breach gate cap breach]; exact same
    · rw [writeRoute_overCap gate (Nat.lt_of_not_le cap)]; exact same
  · rw [writeRoute_wrongGate (fun h => gate (.inl h)) fun h => gate (.inr h)]; exact same

/-- ROUTE_WRITE keeps the laws and changes the table alone (R29, R30). -/
theorem routeWrite_kept (src : Source) (args : List Byte) (s : State) :
    LawsKept s (routeWrite src args s).state ∧ SameBut s (routeWrite src args s).state [.routes] := by
  have refused {status : Status} {details : List Byte} :
      LawsKept s (refuse s status details).state ∧ SameBut s (refuse s status details).state [.routes] :=
    ⟨.refl s, .refl s _⟩
  unfold routeWrite
  split
  · split
    · split
      · exact refused
      · split
        · exact refused
        · next edit read =>
          split
          · exact refused
          · split
            · exact refused
            · next config edited =>
              exact writeRoute_kept s (edited_inRange edited (readEdit_eq_some.1 read).1)
    · exact refused
  · exact refused

end Write

/-! ## Rows -/

section Rows
variable {s t effect : State} {possible : Bool} {run : Source → List Byte → State → Execution}

/-- An event leaves the part as it was, or it is possible and its effect happens. -/
theorem event_cases (h : event s possible effect = .next t) :
    t = s ∨ (possible = true ∧ t = effect.finish) := by
  rw [event_eq] at h
  obtain rfl := Host.Outcome.next.inj h
  split
  · next taken => exact .inr ⟨(Bool.and_eq_true _ _ ▸ taken).2, rfl⟩
  · exact .inl rfl

theorem event_part (h : event s possible effect = .next t) (keeps : possible = true → PartKept s effect) :
    PartKept s t := by
  rcases event_cases h with rfl | ⟨possible, rfl⟩
  · exact .refl t
  · exact (keeps possible).trans (TableKept.finish effect).part

theorem event_reset (h : event s possible effect = .next t) (keeps : possible = true → ResetOrKept s effect) :
    ResetOrKept s t := by
  rcases event_cases h with rfl | ⟨possible, rfl⟩
  · exact .inl (.refl t)
  · exact (keeps possible).finish

/-- A row that serves a record leaves the part as it was, or executes the record. -/
theorem serve_cases {codes : Byte → Bool} (h : s.serve codes run = .next t) :
    t = s ∨ ∃ src record, t = (s.execute src record run).finish := by
  unfold State.serve at h
  split at h
  · exact (event_cases h).imp_right fun ⟨_, e⟩ => ⟨_, _, e⟩
  · exact .inl ((event_cases h).elim id fun ⟨impossible, _⟩ => by cases impossible)

theorem serve_part (codes : Byte → Bool) (keeps : KeepsPart run) (h : s.serve codes run = .next t) : PartKept s t := by
  rcases serve_cases h with rfl | ⟨src, record, rfl⟩
  · exact .refl t
  · have taken : PartKept s (s.takeRecord src) := (TableKept.takeRecord s src).part
    exact (taken.trans (keeps src record.arguments _)).trans
      ((TableKept.reply _ src _).part.trans (TableKept.finish _).part)

/-- Every row but ROUTE_WRITE and those that may take a part reset. -/
theorem exec_part (c : Instr) (s t : State) (h : exec c s = .next t) (other : c ≠ .routeWrite)
    (noReset : mayReset c = false) : PartKept s t := by
  cases c with
  | routeWrite => exact absurd rfl other
  | controlPortCompletion straps => cases noReset
  | transmissionCompletion straps => cases noReset
  | graceExpiry straps => cases noReset
  | powerOn straps resetLow => cases noReset
  | resetNReleased straps => cases noReset
  | alignmentAchieved p => exact event_part h fun _ => (TableKept.modifyPort s p _ (.of_eq rfl)).part
  | alignmentLost p => exact event_part h fun _ => (TableKept.alignmentLost s p).part
  | headerEvent p header => exact event_part h fun _ => .headerArrives s p header
  | endEvent p => exact event_part h fun _ => .packetEnds s p
  | frameIdleExpiry r => exact event_part h fun _ => (TableKept.endIngressFrame s r (by decide)).part
  | characterReceived character stopBit => exact event_part h fun _ => (TableKept.character s character stopBit).part
  | gapAbort => exact event_part h fun _ => ((TableKept.modifyReceiver s _).trans (.countSource _ _ _)).part
  | unknownCommand => exact serve_part (fun code => !commandCodes.contains code) unknownCommand_part h
  | identify => exact serve_part (· == 0x01) identify_part h
  | claim => exact serve_part (· == 0x02) claim_part h
  | drop => exact serve_part (· == 0x03) drop_part h
  | leaseTime => exact serve_part (· == 0x04) leaseTime_part h
  | resetPart => exact serve_part (· == 0x05) resetPart_part h
  | portSet => exact serve_part (· == 0x10) portSet_part h
  | portStatus => exact serve_part (· == 0x11) portStatus_part h
  | routeRead => exact serve_part (· == 0x20) routeRead_part h
  | routeEnable => exact serve_part (· == 0x22) routeEnable_part h
  | routeDisable => exact serve_part (· == 0x23) routeDisable_part h
  | tableScan => exact serve_part (· == 0x24) tableScan_part h
  | hold => exact serve_part (· == 0x28) (gateCommand_part holdGate_table) h
  | release => exact serve_part (· == 0x29) (gateCommand_part releaseGate_table) h
  | step => exact serve_part (· == 0x2A) (gateCommand_part stepGate_table) h
  | holdpointSet => exact serve_part (· == 0x2B) holdpointSet_part h
  | holdpointClear => exact serve_part (· == 0x2C) holdpointClear_part h
  | poolStatus => exact serve_part (· == 0x30) poolStatus_part h
  | trunkStatus => exact serve_part (· == 0x40) trunkStatus_part h
  | trunkHalt => exact serve_part (· == 0x41) trunkHalt_part h
  | trunkStart => exact serve_part (· == 0x42) trunkStart_part h
  | trunkRetrain => exact serve_part (· == 0x43) trunkRetrain_part h
  | noticeAck => exact serve_part (· == 0x50) noticeAck_part h
  | noticeReplay => exact serve_part (· == 0x51) noticeReplay_part h
  | noticeMask => exact serve_part (· == 0x52) noticeMask_part h
  | noticeRoute => exact serve_part (· == 0x53) noticeRoute_part h
  | countersRead => exact serve_part (· == 0x60) countersRead_part h
  | creditGrant rest => exact event_part h fun _ => (TableKept.takeGrant s rest).part
  | remoteCommandRecord rest =>
    refine event_part h fun _ => ?_
    split
    · exact (TableKept.takeRemote s rest).part
    · exact (TableKept.countTrunk s _).part
  | acknowledgement rest => exact event_part h fun _ => (TableKept.acknowledge s rest).part
  | unknownReverseRecord record => exact event_part h fun _ => (TableKept.countTrunk s _).part
  | reverseAlignment => exact event_part h fun _ => .of_same rfl rfl rfl rfl
  | signalLoss =>
    refine event_part h fun _ => ?_
    split
    · exact (TableKept.loseSignal s).part
    · exact .of_same rfl rfl rfl rfl
  | trainTimerExpiry => exact event_part h fun _ => ((TableKept.enterDown s).trans (.countTrunk _ _)).part
  | retryTimerExpiry => exact event_part h fun _ => (TableKept.enterTraining s).part
  | stallExpiry => exact event_part h fun _ => (TableKept.expireStall s).part
  | leaseExpiry => exact event_part h fun _ => (TableKept.expireLease s).part
  | resetNAsserted =>
    obtain rfl := Host.Outcome.next.inj h
    split
    · exact (TableKept.holdInReset s _).part
    · exact .refl s
  | bytesReceived p bytes => exact event_part h fun _ => (TableKept.bytesArrive s p bytes).part

/-- ROUTE_WRITE keeps the laws, and leaves the queue and the link (R19, R107, R127). -/
theorem exec_routeWrite_kept (h : exec .routeWrite s = .next t) :
    LawsKept s t ∧ t.queue = s.queue ∧ t.link = s.link := by
  rcases serve_cases (run := routeWrite) (codes := (· == 0x21)) h with rfl | ⟨src, record, rfl⟩
  · exact ⟨.refl t, rfl, rfl⟩
  · obtain ⟨laws, frame⟩ := routeWrite_kept src record.arguments (s.takeRecord src)
    have taken : PartKept s (s.takeRecord src) := (TableKept.takeRecord s src).part
    have answered := ((TableKept.reply (routeWrite src record.arguments (s.takeRecord src)).state src
      { sequence := record.sequence, code := record.code,
        status := (routeWrite src record.arguments (s.takeRecord src)).status,
        results := (routeWrite src record.arguments (s.takeRecord src)).results }).trans
      (c := True) (.finish _)).part
    refine ⟨(taken.toLawsKept.trans laws).trans answered.toLawsKept, ?_, ?_⟩
    · rw [(finish_frame _).queue]
      simp [State.execute, State.reply, frame.queue]
    · rw [(finish_frame _).link]
      simp [State.execute, State.reply, frame.link]

/-- A completion on the trunk: of a stream record, whose head leaves the queue, or of another transmission. -/
theorem exec_transmissionCompletion_kept {straps : Straps}
    (h : exec (.transmissionCompletion straps) s = .next t) :
    ResetOrKept s t ∨
      (LawsKept s t ∧ s.sender.inFlight = .stream ∧ (t.queue = s.queue ∨ ∃ record, s.queue = record :: t.queue)) := by
  by_cases stream : s.sender.inFlight = .stream
  · rcases event_cases h with rfl | ⟨-, rfl⟩
    · exact .inl (.inl (.refl t))
    · have sent : s.completeTrunk straps =
          State.recordSent { s with sender := { s.sender with inFlight := .nothing, wire := [] } } := by
        simp only [State.completeTrunk, stream]
      have freed : PartKept s { s with sender := { s.sender with inFlight := .nothing, wire := [] } } :=
        .of_same rfl rfl rfl rfl
      rw [sent]
      refine .inr ⟨(freed.toLawsKept.trans (.recordSent _)).trans (TableKept.finish _).part.toLawsKept, stream, ?_⟩
      rw [(finish_frame _).queue]
      exact recordSent_queue _
  · exact .inl (event_reset h fun _ => .completeTrunk straps stream)

/-- The other rows that may take a part reset. -/
theorem exec_reset (c : Instr) (s t : State) (h : exec c s = .next t) (reset : mayReset c = true)
    (other : ∀ straps, c ≠ .transmissionCompletion straps) : ResetOrKept s t := by
  cases c with
  | controlPortCompletion straps => exact event_reset h fun _ => .completePort s straps
  | transmissionCompletion straps => exact absurd rfl (other straps)
  | graceExpiry straps => exact event_reset h fun _ => .expireGrace s straps
  | powerOn straps resetLow =>
    cases resetLow
    · obtain rfl := Host.Outcome.next.inj h
      exact (ResetOrKept.partReset s _ _ _).finish
    · obtain rfl := Host.Outcome.next.inj h
      exact .inl (TableKept.holdInReset s _).part
  | resetNReleased straps =>
    replace h : execResetNReleased straps s = .next t := h
    unfold execResetNReleased at h
    split at h
    · obtain rfl := Host.Outcome.next.inj h
      exact .inl (.refl s)
    · obtain rfl := Host.Outcome.next.inj h
      exact (ResetOrKept.partReset s _ _ _).finish
    · obtain rfl := Host.Outcome.next.inj h
      exact (ResetOrKept.partReset s _ _ _).finish
  | _ => cases reset

/-- Every command keeps the laws of the table. -/
theorem exec_laws (c : Instr) (s t : State) (h : exec c s = .next t) : LawsKept s t := by
  by_cases write : c = .routeWrite
  · subst write
    exact (exec_routeWrite_kept h).1
  · by_cases reset : mayReset c = true
    · by_cases completion : ∃ straps, c = .transmissionCompletion straps
      · obtain ⟨straps, rfl⟩ := completion
        exact (exec_transmissionCompletion_kept h).elim (·.laws) And.left
      · exact (exec_reset c s t h reset fun straps e => completion ⟨straps, e⟩).laws
    · exact (exec_part c s t h write (by simpa using reset)).toLawsKept

end Rows

/-- A step runs the front command, and the queue of waiting commands is in none of the laws. -/
theorem step_laws {s t : State} (h : step s = .next t) : LawsKept s t := by
  unfold step at h
  split at h
  · obtain rfl := Host.Outcome.next.inj h
    exact .refl s
  · next c rest _ =>
    have taken : LawsKept s { s with pending := rest } := ⟨id, id, id, id, id⟩
    exact taken.trans (exec_laws c _ t h)

/-- Settles O54: the first two laws of `step_laws`. -/
theorem routeTableLawsAreKept : Obligations.RouteTableLawsAreKept :=
  fun _ _ h => ⟨(step_laws h).configured, (step_laws h).clashFree⟩

/-- Settles O55: the last three laws of `step_laws`. -/
theorem routeRuntimeLawsAreKept : Obligations.RouteRuntimeLawsAreKept :=
  fun _ _ h => ⟨(step_laws h).gates, (step_laws h).timers, (step_laws h).counts⟩

/-- Settles O59: every row adds records at the tail but a completion on the trunk and a part reset; the table and the
epoch are untouched by all but ROUTE_WRITE and those rows. -/
theorem onlyTheseEventsChangeThem : Obligations.OnlyTheseEventsChangeThem := by
  intro c s t h
  have added {queue : List StreamRecord} (grows : s.queue <+: queue) : ∃ added, queue = s.queue ++ added :=
    grows.imp fun _ => Eq.symm
  by_cases reset : mayReset c = true
  · refine ⟨?_, fun _ no => absurd reset (by simp [no]), fun no => absurd reset (by simp [no])⟩
    have settled (kept : ResetOrKept s t) : (∃ added, t.queue = s.queue ++ added) ∨ t.queue = [] :=
      kept.imp (fun part => added part.queue) And.right
    by_cases completion : ∃ straps, c = .transmissionCompletion straps
    · obtain ⟨straps, rfl⟩ := completion
      rcases exec_transmissionCompletion_kept h with kept | ⟨-, stream, same | ⟨record, left⟩⟩
      · exact (settled kept).imp_right fun empty => .inr ⟨reset, empty⟩
      · exact .inl ⟨[], by simp [same]⟩
      · exact .inr (.inl ⟨straps, record, rfl, stream, left⟩)
    · exact (settled (exec_reset c s t h reset fun straps e => completion ⟨straps, e⟩)).imp_right
        fun empty => .inr ⟨reset, empty⟩
  · by_cases write : c = .routeWrite
    · subst write
      obtain ⟨-, queue, link⟩ := exec_routeWrite_kept h
      exact ⟨.inl ⟨[], by simp [queue]⟩, fun other => absurd rfl other, fun _ => by rw [link]⟩
    · have part := exec_part c s t h write (by simpa using reset)
      exact ⟨.inl (added part.queue), fun _ _ => part.configs, fun _ => part.epoch⟩

end Sys2Proof.Machine
end

section
/-! SUPPORT. Frame integrity on the trunk (R58, R108). `Carried r s t` says of an operation on one route that it adds
records of the route's trunk channel alone, and that these lead the channel from the route's open frame before to its
open frame after; it needs no law and is put together along the operations' own composition. `channels_of_carried` is
where the laws of the table come in: under them the channel of a route in service is that route's alone. -/

namespace Sys2Proof.Machine

-- One theorem after another, as in the model's tests.
set_option Elab.async false

/-! ## Records on a trunk channel -/

theorem followAll_append (first second : List StreamRecord) (f : Option TrunkFrame) :
    followAll (first ++ second) f = (followAll first f).bind (followAll second) := List.foldlM_append ..

theorem followAll_singleton (record : StreamRecord) (f : Option TrunkFrame) :
    followAll [record] f = record.body.follow f := by
  simp [followAll]

section Entry
variable {x : Route} {frame : OpenFrame} {line : Option LineInAssembly}

/-- The open frame as the receiver will see it (R184). -/
def OpenFrame.onTrunk (frame : OpenFrame) : TrunkFrame :=
  { number := frame.number, forwarded := frame.forwarded, hasSeal := frame.sealValue.isSome }

theorem trunkFrame_assembling (assembly : x.assembly = .assembling frame line) :
    x.trunkFrame = some frame.onTrunk := by
  rw [Route.trunkFrame, assembly]; rfl

theorem trunkFrame_eq_none : x.trunkFrame = none ↔ x.isAssembling = false := by
  unfold Route.trunkFrame Route.isAssembling
  split <;> simp

/-- An abort mark ends the frame it names (R62). -/
theorem follow_abort (reason : AbortReason) (frame : OpenFrame) :
    (RecordBody.abort reason frame.number frame.forwarded).follow (some frame.onTrunk) = some none := by
  simp [RecordBody.follow, OpenFrame.onTrunk]

/-- A closing mark ends the frame it names, sealed as the frame is (R60). -/
theorem follow_closing (damaged overrun mismatch short : Bool) (frame : OpenFrame) :
    (RecordBody.closing damaged overrun mismatch short frame.number frame.forwarded frame.sealValue).follow
      (some frame.onTrunk) = some none := by
  simp [RecordBody.follow, OpenFrame.onTrunk]

/-- An opening mark opens a frame whose seal runs where its mode is SEALED (R47, R59). -/
theorem follow_opening (mark : OpeningMark) (mode : Mode) :
    (RecordBody.opening mode mark.number mark.declaredLines mark.declaredBytes).follow none =
      some (some (mark.openFrame mode).onTrunk) := by
  cases mode <;> rfl

end Entry

/-! ## Operations on one route -/

/-- What frame integrity needs of an operation on route `r`. -/
structure Carried (r : Fin 64) (s t : State) : Prop where
  only : OnlyRoute s t r
  channel : (t.route r).config.trunkChannel = (s.route r).config.trunkChannel
  records : ∃ added, t.queue = s.queue ++ added ∧
    (∀ record ∈ added, record.trunkChannel = (s.route r).config.trunkChannel) ∧
    followAll added (s.route r).trunkFrame = some (t.route r).trunkFrame

section Carried
variable {s t u : State} {r : Fin 64}

theorem Carried.trans (h : Carried r s t) (k : Carried r t u) : Carried r s u := by
  obtain ⟨only, channel, first, queue, on, follows⟩ := h
  obtain ⟨only', channel', second, queue', on', follows'⟩ := k
  refine ⟨only.trans only', channel'.trans channel, first ++ second, ?_, fun record h => ?_, ?_⟩
  · rw [queue', queue, List.append_assoc]
  · exact (List.mem_append.1 h).elim (on record) fun h => (on' record h).trans channel
  · rw [followAll_append, follows, Option.bind_some, follows']

/-- Nothing is queued, and the route keeps its trunk channel and its frame. -/
theorem Carried.of_same (only : OnlyRoute s t r) (queue : t.queue = s.queue)
    (channel : (t.route r).config.trunkChannel = (s.route r).config.trunkChannel)
    (frame : (t.route r).trunkFrame = (s.route r).trunkFrame) : Carried r s t :=
  ⟨only, channel, [], by simp [queue], by simp, by rw [frame]; rfl⟩

/-- One record is queued. -/
theorem Carried.of_record {record : StreamRecord} (only : OnlyRoute s t r) (queue : t.queue = s.queue ++ [record])
    (channel : (t.route r).config.trunkChannel = (s.route r).config.trunkChannel)
    (on : record.trunkChannel = (s.route r).config.trunkChannel)
    (follows : record.body.follow (s.route r).trunkFrame = some (t.route r).trunkFrame) : Carried r s t :=
  ⟨only, channel, [record], queue, by simpa using on, by rw [followAll_singleton, follows]⟩

/-- An operation that leaves the table and the queue. -/
theorem Carried.of_frame {changed : List Piece} (h : SameBut s t changed) (routes : Piece.routes ∉ changed := by decide)
    (queue : Piece.queue ∉ changed := by decide) : Carried r s t :=
  .of_same (fun k _ => h.route k routes) (h.queue queue) (by rw [h.route r routes]) (by rw [h.route r routes])

theorem Carried.refl (r : Fin 64) (s : State) : Carried r s s := .of_frame (.refl s [])

theorem Carried.modifyRoute (f : Route → Route)
    (channel : (f (s.route r)).config.trunkChannel = (s.route r).config.trunkChannel)
    (frame : (f (s.route r)).trunkFrame = (s.route r).trunkFrame) : Carried r s (s.modifyRoute r f) :=
  .of_same (modifyRoute_onlyRoute s r f) rfl (by rw [State.route_modifyRoute_self]; exact channel)
    (by rw [State.route_modifyRoute_self]; exact frame)

theorem Carried.countRoute (f : RouteCounters → RouteCounters) : Carried r s (s.countRoute r f) :=
  .modifyRoute _ rfl rfl

theorem Carried.stopIdleTimer (s : State) (r : Fin 64) : Carried r s (s.stopIdleTimer r) := .modifyRoute _ rfl rfl

theorem Carried.startIdleTimer (s : State) (r : Fin 64) : Carried r s (s.startIdleTimer r) := by
  unfold State.startIdleTimer
  split
  · exact .refl r s
  · exact .modifyRoute _ rfl rfl

/-- A route that is not ASSEMBLING moves to another state that is not. -/
theorem Carried.leave {f : Route → Route} (out : (s.route r).isAssembling = false)
    (out' : (f (s.route r)).isAssembling = false)
    (channel : (f (s.route r)).config.trunkChannel = (s.route r).config.trunkChannel) :
    Carried r s (s.modifyRoute r f) :=
  .modifyRoute f channel ((trunkFrame_eq_none.2 out').trans (trunkFrame_eq_none.2 out).symm)

/-- The open frame changes in what the receiver does not see, or its line in assembly does. -/
theorem Carried.setFrame {frame frame' : OpenFrame} {line line' : Option LineInAssembly}
    (assembly : (s.route r).assembly = .assembling frame line) (same : frame'.onTrunk = frame.onTrunk) :
    Carried r s (s.setAssembly r (.assembling frame' line')) := by
  refine .modifyRoute _ rfl ?_
  rw [trunkFrame_assembling assembly, trunkFrame_assembling (frame := frame') rfl, same]

theorem Carried.shutGate (reason : ShutReason) (frame : Option Nat) : Carried r s (s.shutGate r reason frame) := by
  have moved (gate : Gate) (info : NoticeInfo) : Carried r s ((s.modifyRoute r fun x => { x with gate }).raise info) :=
    (Carried.modifyRoute _ rfl rfl).trans (.of_frame (raise_frame _ _))
  unfold State.shutGate
  split
  all_goals first
    | exact moved _ _
    | exact .refl r s

theorem Carried.frameEndStep (frame : Nat) : Carried r s (s.frameEndStep r frame) := by
  unfold State.frameEndStep
  split
  · exact .shutGate _ _
  · exact .shutGate _ _
  · exact .refl r s

theorem Carried.forceGate : Carried r s (s.forceGate r) := by
  unfold State.forceGate
  split
  · exact .modifyRoute _ rfl rfl
  · exact .refl r s

theorem Carried.fireHoldPoint (frame : Nat) (h : HoldPoint) : Carried r s (s.fireHoldPoint r frame h) :=
  (Carried.modifyRoute _ rfl rfl).trans (.of_frame (raise_frame _ _))

theorem Carried.fire (frame : Nat) (fired : Option HoldPoint) : Carried r s (s.fire r frame fired) := by
  cases fired with
  | none => exact .refl r s
  | some h => exact .fireHoldPoint frame h

/-! ### The end of an ingress frame -/

theorem ended_trunkFrame (x : Route) (reason : AbortReason) : (x.ended reason).trunkFrame = none :=
  trunkFrame_eq_none.2 (ended_out x reason)

theorem ended_config (x : Route) (reason : AbortReason) : (x.ended reason).config = x.config := by
  unfold Route.ended
  split <;> rfl

/-- The records that end an ingress frame leave no frame open (R62). -/
theorem followAll_endRecords (x : Route) (r : Fin 64) (reason : AbortReason) :
    followAll (x.endRecords r reason) x.trunkFrame = some none := by
  unfold Route.endRecords
  split
  · next frame line assembly =>
    rw [followAll_singleton, trunkFrame_assembling assembly]
    exact follow_abort reason frame
  · next out =>
    rw [trunkFrame_eq_none.2 (isAssembling_of_ne out)]; rfl

theorem endRecords_channel {x : Route} {r : Fin 64} {reason : AbortReason} {record : StreamRecord}
    (h : record ∈ x.endRecords r reason) : record.trunkChannel = x.config.trunkChannel := by
  unfold Route.endRecords at h
  split at h
  · obtain rfl := List.mem_singleton.1 h; rfl
  · cases h

theorem Carried.of_ended {reason : AbortReason} (h : FrameEnded s t r reason) : Carried r s t := by
  obtain ⟨-, only, entry, queue, -, -⟩ := h
  refine ⟨only, by rw [entry, ended_config], _, queue, fun _ => endRecords_channel, ?_⟩
  rw [entry, ended_trunkFrame, followAll_endRecords]

theorem Carried.abort (reason : AbortReason) : Carried r s (s.abort r reason) := by
  rcases assembly : (s.route r).assembly with _ | ⟨frame, line⟩ | _
  · simpa [State.abort, assembly] using Carried.refl r s
  · exact .of_ended (abort_spec s r reason frame line assembly)
  · simpa [State.abort, assembly] using Carried.refl r s

theorem Carried.freeLine : Carried r s (s.freeLine r) := by
  have entry := s.route_freeLine r r
  rw [if_pos rfl] at entry
  refine .of_same (freeLine_onlyRoute s r) (freeLine_frame s r).queue (by rw [entry]) ?_
  rw [entry]
  simp only [Route.trunkFrame]
  rcases (s.route r).assembly with _ | _ | _ <;> rfl

/-! ### Headers -/

theorem Carried.setLine (line : LineInAssembly) : Carried r s (s.setLine r line) := by
  unfold State.setLine
  refine Carried.freeLine.trans ?_
  dsimp only
  split
  · next assembly => exact .setFrame assembly rfl
  · exact .refl r _

theorem Carried.takeSegments (n : Nat) : Carried r s (s.takeSegments r n) :=
  .of_same (fun _ hk => State.route_takeSegments_ne s n hk) rfl (by rw [State.route_takeSegments_self])
    (by rw [State.route_takeSegments_self]; rfl)

theorem Carried.allocate (p : Fin 4) (header : PacketHeader) : Carried r s (s.allocate p r header) := by
  unfold State.allocate
  dsimp only
  split
  · exact (((Carried.setLine _).trans (.takeSegments _)).trans (.of_frame (takeDescriptors_frame _ 1))).trans
      (.of_frame (testLong_frame _ p r header))
  · exact (Carried.abort _).trans (.countRoute _)

theorem Carried.filterPacket (p : Fin 4) (header : PacketHeader) : Carried r s (s.filterPacket p r header) := by
  unfold State.filterPacket
  dsimp only
  split
  · exact .countRoute _
  · exact .allocate p header

/-- The counts of lines received are nothing the receiver sees (R51). -/
theorem Carried.modifyFrame {f : OpenFrame → OpenFrame} (same : ∀ frame, (f frame).onTrunk = frame.onTrunk) :
    Carried r s (s.modifyFrame r f) := by
  unfold State.modifyFrame
  split
  · next assembly => exact .setFrame assembly (same _)
  · exact .refl r s

theorem Carried.countLine (p : Fin 4) (header : PacketHeader) (frame : OpenFrame) :
    Carried r s (s.countLine p r header frame) := by
  unfold State.countLine
  split
  · split
    · refine Carried.trans ?_ (.filterPacket p header)
      exact .modifyFrame fun _ => rfl
    · refine Carried.trans ?_ (.countRoute _)
      exact .modifyFrame fun _ => rfl
  · exact .filterPacket p header

theorem Carried.assembleHeader (p : Fin 4) (header : PacketHeader) (frame : OpenFrame) :
    Carried r s (s.assembleHeader p r header frame) := by
  unfold State.assembleHeader
  split
  · next h _ =>
    refine (Carried.fireHoldPoint frame.number h).trans ?_
    dsimp only
    split
    · exact (Carried.abort _).trans (.countRoute _)
    · exact Carried.forceGate.trans (.countLine p header frame)
  · exact .countLine p header frame

theorem Carried.routeHeader (p : Fin 4) (header : PacketHeader) : Carried r s (s.routeHeader p r header) := by
  unfold State.routeHeader
  refine (Carried.stopIdleTimer s r).trans ?_
  dsimp only
  split
  · exact .refl r _
  · split
    · exact .assembleHeader p header _
    · exact .countRoute _
    · exact .countRoute _

/-! ### Opening marks -/

theorem Carried.admitFrame (mark : OpeningMark) (out : (s.route r).isAssembling = false) :
    Carried r s (s.admitFrame r mark) := by
  have only : OnlyRoute s (s.admitFrame r mark) r :=
    ((((takeDescriptors_frame s 2).onlyRoute r).trans ((enqueue_frame _ r _ _).onlyRoute r)).trans
      (setAssembly_onlyRoute _ r _)).trans (modifyRoute_onlyRoute _ r _)
  have entry : (s.admitFrame r mark).route r =
      { s.route r with
        assembly := .assembling (mark.openFrame (s.route r).config.mode) none
        idleTimer := .running (s.route r).config.idleLimit
        refusalRun := false
        counters := { (s.route r).counters with
          framesAdmitted := bump (s.route r).counters.framesAdmitted } } := by simp [State.admitFrame]
  refine .of_record only rfl (by rw [entry]) rfl ?_
  rw [trunkFrame_eq_none.2 out, entry, trunkFrame_assembling rfl]
  exact follow_opening mark _

theorem Carried.refuseFrame (mark : OpeningMark) (out : (s.route r).isAssembling = false) :
    Carried r s (s.refuseFrame r mark) := by
  unfold State.refuseFrame
  dsimp only
  split
  · exact .leave out rfl rfl
  · exact (Carried.leave out rfl rfl).trans (.of_frame (raise_frame _ _))

theorem Carried.holdOff (out : (s.route r).isAssembling = false) : Carried r s (s.holdOff r) :=
  (Carried.leave out rfl rfl).trans (.countRoute _)

theorem Carried.tryFrame (mark : OpeningMark) (fired : Option HoldPoint) (out : (s.route r).isAssembling = false) :
    Carried r s (s.tryFrame r mark fired) := by
  unfold State.tryFrame
  split
  · refine (Carried.shutGate _ _).trans (.holdOff ?_)
    rwa [Route.isAssembling, route_shutGate_assembly, ← Route.isAssembling]
  · split
    · exact (Carried.admitFrame mark out).trans .forceGate
    · exact .refuseFrame mark out
  · split
    · exact .admitFrame mark out
    · exact .refuseFrame mark out

theorem Carried.meetGate (mark : OpeningMark) (fired : Option HoldPoint) (out : (s.route r).isAssembling = false) :
    Carried r s (s.meetGate r mark fired) := by
  unfold State.meetGate
  split
  · exact .tryFrame mark fired out
  · exact .tryFrame mark fired out
  all_goals exact .holdOff out

/-- The truncation leaves no frame open on the channel before the mark opens its own (R43, R47). -/
theorem Carried.openingMark (mark : OpeningMark) : Carried r s (s.openingMark r mark) := by
  unfold State.openingMark
  dsimp only
  have ended := endIngressFrame_spec (s.fire r mark.number ((s.route r).firedByMark mark.number)) r .truncated
  refine ((Carried.fire _ _).trans (.of_ended ended)).trans (.meetGate mark _ ?_)
  obtain ⟨-, -, entry, -, -, -⟩ := ended
  rw [entry]
  exact ended_out _ _

/-! ### Lines and closing marks -/

/-- A line record carries the index after the lines forwarded so far (R58). -/
theorem follow_record (line : LineInAssembly) (r : Fin 64) (y : Route) (frame : OpenFrame) (damaged long : Bool) :
    (line.record r y frame damaged long).body.follow (some frame.onTrunk) =
      some (some { frame.onTrunk with
        forwarded := if 0x10 ≤ line.code then frame.forwarded + 1 else frame.forwarded }) := by
  unfold LineInAssembly.record StreamRecord.of
  dsimp only
  split
  · exact if_pos rfl
  · rfl

theorem Carried.forward {frame : OpenFrame} {line : LineInAssembly}
    (assembly : (s.route r).assembly = .assembling frame (some line)) (damagedLines damaged long : Bool) :
    Carried r s (s.forward r { frame with damagedLines } line damaged long) := by
  obtain ⟨-, only, queue, entry⟩ := forward_spec (s := s) (r := r) (frame := { frame with damagedLines })
    (line := line) (damaged := damaged) (long := long)
  refine .of_record only queue (by rw [entry]) rfl ?_
  rw [trunkFrame_assembling assembly, entry, trunkFrame_assembling rfl]
  refine (follow_record line r (s.route r) { frame with damagedLines } damaged long).trans ?_
  simp [OpenFrame.onTrunk]

theorem Carried.applyPolicy {frame : OpenFrame} {line : LineInAssembly}
    (assembly : (s.route r).assembly = .assembling frame (some line)) (long : Bool) :
    Carried r s (s.applyPolicy r frame line long) := by
  unfold State.applyPolicy
  split
  · exact .abort _
  · refine Carried.trans ?_ (.countRoute _)
    exact .forward assembly true true long

theorem Carried.damagedLine {frame : OpenFrame} {line : LineInAssembly}
    (assembly : (s.route r).assembly = .assembling frame (some line)) (long : Bool) :
    Carried r s (s.damagedLine r frame line long) := by
  unfold State.damagedLine
  split
  · next h _ =>
    refine (Carried.fireHoldPoint frame.number h).trans ?_
    have fired := (route_fireHoldPoint_assembly s r frame.number h).trans assembly
    dsimp only
    split
    · exact .abort _
    · exact Carried.forceGate.trans (.applyPolicy ((route_forceGate_assembly _ r).trans fired) long)
  · exact .applyPolicy assembly long

theorem Carried.packetEnd (damaged long : Bool) : Carried r s (s.packetEnd r damaged long) := by
  unfold State.packetEnd
  split
  · next assembly =>
    split
    · exact .damagedLine assembly long
    · exact .forward assembly _ false false
  · exact .refl r s

theorem Carried.closeFrame {frame : OpenFrame} {line : Option LineInAssembly}
    (assembly : (s.route r).assembly = .assembling frame line) (number : Nat) :
    Carried r s (s.closeFrame r frame number) := by
  unfold State.closeFrame
  dsimp only
  have freed : ((s.freeLine r).route r).assembly = .assembling frame none := by
    rw [State.route_freeLine, if_pos rfl, assembly]
  refine (Carried.freeLine.trans ?_).trans (.frameEndStep frame.number)
  generalize s.freeLine r = v at freed
  refine .of_record (((((enqueue_frame v r _ _).onlyRoute r).trans (countRoute_onlyRoute _ r _)).trans
    (setAssembly_onlyRoute _ r _)).trans (stopIdleTimer_onlyRoute _ r)) rfl (by simp) rfl ?_
  rw [trunkFrame_assembling freed, follow_closing]
  simp [Route.trunkFrame]

theorem Carried.closingMark (number : Nat) : Carried r s (s.closingMark r number) := by
  unfold State.closingMark
  split
  · next assembly => exact .closeFrame assembly number
  · next skipping =>
    have out : (s.route r).isAssembling = false := by simp [Route.isAssembling, skipping]
    exact ((Carried.leave out rfl rfl).trans (.stopIdleTimer _ r)).trans (.countRoute _)
  · exact .countRoute _

theorem Carried.endAtRoute (p : Fin 4) (x : Reception) (header : PacketHeader) :
    Carried (routeOf p header.channel) s (s.endAtRoute p x header) := by
  unfold State.endAtRoute
  dsimp only
  refine Carried.trans ?_ (.startIdleTimer _ _)
  split
  · split
    · exact .openingMark _
    · exact .of_frame (badMark_frame s p)
  · split
    · split
      · exact .closingMark _
      · exact .of_frame (badMark_frame s p)
    · split
      · exact .packetEnd _ _
      · exact (Carried.of_frame (countPort_frame s p _)).trans (.packetEnd _ _)

end Carried

end Sys2Proof.Machine
end

section
/-! The statement about frame integrity (R58, R108): what keeps the channels whole, then all rows. -/

namespace Sys2Proof.Machine

-- One theorem after another, as in the model's tests.
set_option Elab.async false

/-! ## What keeps the channels whole -/

/-- R108 for every trunk channel. -/
def State.ChannelsWhole (s : State) : Prop := ∀ channel, s.ChannelIntegrity channel

/-- Nothing is queued, every route keeps its open frame, and an ASSEMBLING one its trunk channel. -/
structure SameTrunk (s t : State) : Prop where
  queue : t.queue = s.queue
  frames : ∀ r, (t.route r).trunkFrame = (s.route r).trunkFrame
  channels : ∀ r, (s.route r).isAssembling = true →
    (t.route r).config.trunkChannel = (s.route r).config.trunkChannel

section Channels
variable {s t u : State} {r : Fin 64}

theorem isAssembling_congr {x y : Route} (frames : y.trunkFrame = x.trunkFrame) : y.isAssembling = x.isAssembling := by
  rw [Bool.eq_iff_iff, ← not_iff_not, Bool.not_eq_true, Bool.not_eq_true, ← trunkFrame_eq_none, ← trunkFrame_eq_none,
    frames]

theorem SameTrunk.of_eq (routes : t.routes = s.routes) (queue : t.queue = s.queue) : SameTrunk s t where
  queue := queue
  frames r := by rw [State.route_congr routes]
  channels r _ := by rw [State.route_congr routes]

theorem SameTrunk.of_frame {changed : List Piece} (h : SameBut s t changed)
    (routes : Piece.routes ∉ changed := by decide) (queue : Piece.queue ∉ changed := by decide) : SameTrunk s t :=
  .of_eq (h.routes routes) (h.queue queue)

theorem SameTrunk.refl (s : State) : SameTrunk s s := .of_eq rfl rfl

theorem SameTrunk.trans (h : SameTrunk s t) (k : SameTrunk t u) : SameTrunk s u where
  queue := k.queue.trans h.queue
  frames r := (k.frames r).trans (h.frames r)
  channels r isOpen := (k.channels r ((isAssembling_congr (h.frames r)).trans isOpen)).trans (h.channels r isOpen)

/-- One entry changes. -/
theorem SameTrunk.of_entry (only : OnlyRoute s t r) (queue : t.queue = s.queue)
    (frame : (t.route r).trunkFrame = (s.route r).trunkFrame)
    (channel : (s.route r).isAssembling = true →
      (t.route r).config.trunkChannel = (s.route r).config.trunkChannel) : SameTrunk s t where
  queue := queue
  frames k := by
    by_cases hk : k = r
    · subst hk; exact frame
    · rw [only k hk]
  channels k := by
    by_cases hk : k = r
    · subst hk; exact channel
    · exact fun _ => by rw [only k hk]

theorem SameTrunk.modifyRoute (s : State) (r : Fin 64) {f : Route → Route}
    (frame : (f (s.route r)).trunkFrame = (s.route r).trunkFrame)
    (channel : (s.route r).isAssembling = true →
      (f (s.route r)).config.trunkChannel = (s.route r).config.trunkChannel) : SameTrunk s (s.modifyRoute r f) :=
  .of_entry (modifyRoute_onlyRoute s r f) rfl (by rw [State.route_modifyRoute_self]; exact frame)
    (by rw [State.route_modifyRoute_self]; exact channel)

theorem SameTrunk.modifyPort (s : State) (p : Fin 4) (f : Port → Port) : SameTrunk s (s.modifyPort p f) :=
  .of_frame (modifyPort_frame s p f)

theorem SameTrunk.countSource (s : State) (src : Source) (f : SourceCounters → SourceCounters) :
    SameTrunk s (s.countSource src f) := .of_eq (s.countSource_routes src f) (s.countSource_queue src f)

theorem SameTrunk.finish (s : State) : SameTrunk s s.finish := .of_frame (finish_frame s)

/-- The queue of a channel and the open frames on it are as before. -/
theorem SameTrunk.whole (same : SameTrunk s t) (whole : s.ChannelsWhole) : t.ChannelsWhole := by
  intro channel
  obtain ⟨before, after, follows, opened, closed⟩ := whole channel
  have assembling (r : Fin 64) := isAssembling_congr (same.frames r)
  refine ⟨before, after, by rw [State.channelRecords, same.queue]; exact follows, fun r on isOpen => ?_, fun none => ?_⟩
  · rw [assembling] at isOpen
    rw [same.channels r isOpen] at on
    rw [same.frames]
    exact opened r on isOpen
  · refine closed fun r on => ?_
    by_contra isOpen
    rw [Bool.not_eq_false] at isOpen
    rw [← same.channels r isOpen] at on
    rw [← assembling, none r on] at isOpen
    cases isOpen

/-- Under the laws of the table no other ASSEMBLING route is on the channel of a route in service (R26, R87). -/
theorem alone_on_channel (gates : s.GateLaw) (clash : s.ClashFree) (served : (s.route r).gate ≠ .disabled)
    {k : Fin 64} (other : k ≠ r) (on : (s.route k).config.trunkChannel = (s.route r).config.trunkChannel) :
    (s.route k).isAssembling = false := by
  obtain ⟨gates, -⟩ := gates
  obtain ⟨-, -, disabled⟩ := gates k
  by_cases out : (s.route k).gate = .disabled
  · simp [Route.isAssembling, disabled out]
  · exact absurd on (clash k r other out served)

theorem channelRecords_append {added : List StreamRecord} (queue : t.queue = s.queue ++ added) (channel : Nat) :
    t.channelRecords channel = s.channelRecords channel ++ added.filter (·.trunkChannel == channel) := by
  simp [State.channelRecords, queue]

/-- An operation on a route in service keeps the channels whole: on the route's own channel its records follow from its
open frame, and every other channel is as it was (R58, R108). -/
theorem channels_of_carried (law : s.FrameIntegrity) (served : (s.route r).gate ≠ .disabled)
    (carried : Carried r s t) : t.ChannelsWhole := by
  obtain ⟨gates, clash, whole⟩ := law
  obtain ⟨only, sameChannel, added, queue, on, leads⟩ := carried
  intro channel
  obtain ⟨before, after, follows, opened, closed⟩ := whole channel
  by_cases own : channel = (s.route r).config.trunkChannel
  · subst own
    have alone {k : Fin 64} := alone_on_channel gates clash served (k := k)
    have mine : after = (s.route r).trunkFrame := by
      by_cases isOpen : (s.route r).isAssembling = true
      · exact opened r rfl isOpen
      · have out : (s.route r).isAssembling = false := by simpa using isOpen
        rw [trunkFrame_eq_none.2 out]
        refine closed fun k on => ?_
        by_cases hk : k = r
        · rw [hk]; exact out
        · exact alone hk on
    refine ⟨before, (t.route r).trunkFrame, ?_, fun k on isOpen => ?_, fun none => ?_⟩
    · rw [channelRecords_append queue, List.filter_eq_self.2 (by simpa using on), followAll_append, follows, mine]
      exact leads
    · by_cases hk : k = r
      · rw [hk]
      · rw [only k hk] at on isOpen
        rw [alone hk on] at isOpen
        cases isOpen
    · exact trunkFrame_eq_none.2 (none r sameChannel)
  · have elsewhere : added.filter (·.trunkChannel == channel) = [] :=
      List.filter_eq_nil_iff.2 fun record h => by simpa [on record h] using Ne.symm own
    have notMine {k : Fin 64} (on : (t.route k).config.trunkChannel = channel) : k ≠ r := fun e =>
      own (by rw [← on, e, sameChannel])
    refine ⟨before, after, by rw [channelRecords_append queue, elsewhere, List.append_nil]; exact follows,
      fun k on isOpen => ?_, fun none => closed fun k on => ?_⟩
    · have same := only k (notMine on)
      rw [same] at on isOpen ⊢
      exact opened k on isOpen
    · have same := only k fun e => own (by rw [← on, e])
      rw [← same] at on ⊢
      exact none k on

/-- After a part reset nothing is queued and no frame is open (R164). -/
theorem partReset_whole (s : State) (cause : ResetCause) (epoch : Nat) (straps : Straps) :
    (s.partReset cause epoch straps).ChannelsWhole := by
  refine fun channel => ⟨none, none, rfl, fun r _ isOpen => ?_, fun _ => rfl⟩
  rw [route_partReset] at isOpen
  cases isOpen

/-- The head leaves a queue whose other records stay as they follow it (R108, R114). -/
theorem whole_of_headSent {record : StreamRecord} (whole : s.ChannelsWhole) (queue : s.queue = record :: t.queue)
    (frames : ∀ r, (t.route r).trunkFrame = (s.route r).trunkFrame)
    (channels : ∀ r, (t.route r).config = (s.route r).config) : t.ChannelsWhole := by
  have same : SameTrunk { s with queue := t.queue } t := ⟨rfl, frames, fun r _ => by rw [channels]; rfl⟩
  refine same.whole fun channel => ?_
  obtain ⟨before, after, follows, rest⟩ := whole channel
  rw [State.channelRecords, queue, List.filter_cons] at follows
  split at follows
  · obtain ⟨next, -, follows⟩ := Option.bind_eq_some_iff.1 follows
    exact ⟨next, after, follows, rest⟩
  · exact ⟨before, after, follows, rest⟩

end Channels

/-! ## Events on a route -/

section Routes
variable {s t : State} {p : Fin 4}

/-- A port whose packet is cut takes no packet from its route, and nothing else changes. -/
theorem integrity_of_cut (law : s.FrameIntegrity) (frame : SameBut s t [.ports]) (only : OnlyPort s t p)
    (cut : (t.port p).reception = none) : t.FrameIntegrity := by
  obtain ⟨gates, clash, whole⟩ := law
  have kept : PartKept s t := (TableKept.of_frame frame (packets := fun _ => only.packets (.of_none cut))).part
  exact ⟨kept.gates gates, kept.clashFree clash, (SameTrunk.of_frame frame).whole whole⟩

/-- Taking an ingress frame away: a route that has one is in service (R87). -/
theorem integrity_endIngressFrame (law : s.FrameIntegrity) (r : Fin 64) {reason : AbortReason}
    (other : reason ≠ .disabled) : (s.endIngressFrame r reason).FrameIntegrity := by
  have kept : PartKept s (s.endIngressFrame r reason) := (TableKept.endIngressFrame s r other).part
  by_cases served : (s.route r).gate = .disabled
  · obtain ⟨⟨gates, -⟩, -, -⟩ := id law
    obtain ⟨-, -, idle⟩ := gates r
    have unchanged : s.endIngressFrame r reason = s := by simp [State.endIngressFrame, idle served]
    rwa [unchanged]
  · have whole := channels_of_carried law served (.of_ended (endIngressFrame_spec s r reason))
    obtain ⟨gates, clash, -⟩ := law
    exact ⟨kept.gates gates, kept.clashFree clash, whole⟩

theorem integrity_visitRoutes (law : s.FrameIntegrity) (p : Fin 4) {reason : AbortReason} (other : reason ≠ .disabled) :
    (s.visitRoutes p reason).FrameIntegrity := by
  unfold State.visitRoutes
  generalize List.finRange 16 = channels
  induction channels generalizing s with
  | nil => exact law
  | cons channel rest ih => exact ih (integrity_endIngressFrame law _ other)

theorem alignmentLost_whole (law : s.FrameIntegrity) (p : Fin 4) : (s.alignmentLost p).ChannelsWhole := by
  unfold State.alignmentLost
  split
  · have down := integrity_of_cut law (portDown_frame s p) (portDown_onlyPort s p) (by rw [s.port_portDown p])
    obtain ⟨-, -, whole⟩ := integrity_visitRoutes down p (reason := .portLost) (by decide)
    exact (SameTrunk.of_frame (raise_frame _ _)).whole whole
  · obtain ⟨-, -, whole⟩ := law
    exact (SameTrunk.modifyPort s p _).whole whole

theorem setPortMode_whole (law : s.FrameIntegrity) (p : Fin 4) (enable : Bool) (lanes : Lanes) :
    (s.setPortMode p enable lanes).ChannelsWhole := by
  obtain ⟨-, -, whole⟩ := id law
  by_cases off : (s.port p).state = .off
  · obtain ⟨frame, -, -⟩ := setPortMode_off (enable := enable) (lanes := lanes) off
    exact (SameTrunk.of_frame frame).whole whole
  · cases enable
    · rw [setPortMode_disable off]
      have quiet := integrity_of_cut (t := s.portQuiet p) law ((cutReception_frame s p).trans (modifyPort_frame _ p _))
        ((cutReception_onlyPort s p).trans (modifyPort_onlyPort _ p _))
        (by simp [State.portQuiet, State.port_cutReception])
      obtain ⟨-, -, whole⟩ := integrity_visitRoutes quiet p (reason := .portOff) (by decide)
      exact (SameTrunk.modifyPort _ p _).whole whole
    · rwa [setPortMode_enabled off]

/-- A header that goes to its route finds it in service (R10). -/
theorem headerArrives_whole (law : s.FrameIntegrity) (p : Fin 4) (header : Header) :
    (s.headerArrives p header).ChannelsWhole := by
  obtain ⟨gates, clash, whole⟩ := law
  by_cases passes : headerPasses header = true
  · have begun (d : Disposition) := (SameTrunk.of_frame (begun_frame s p (headerFields header) d)).whole whole
    rw [headerArrives_eq passes]
    dsimp only
    split
    · exact (SameTrunk.of_frame (countPort_frame _ p _)).whole (begun _)
    · split
      · exact (SameTrunk.of_frame (countPort_frame _ p _)).whole (begun _)
      · next served =>
        have kept := PartKept.begun s p (headerFields header) served
        refine channels_of_carried ⟨kept.gates gates, kept.clashFree clash, begun _⟩ ?_ (.routeHeader p _)
        rwa [(begun_frame s p _ _).route]
  · rw [State.headerArrives, if_neg passes]
    exact (SameTrunk.of_frame ((receive_frame s p _ _).trans (countPort_frame _ p _))).whole whole

theorem SameTrunk.writePayload (s : State) (r : Fin 64) (length : Nat) (bytes : List Byte) :
    SameTrunk s (s.writePayload r length bytes) := by
  unfold State.writePayload
  split
  · next frame line assembly =>
    refine .modifyRoute s r ?_ fun _ => rfl
    rw [trunkFrame_assembling assembly, trunkFrame_assembling rfl]
  · exact .refl s

theorem SameTrunk.bytesArrive (s : State) (p : Fin 4) (bytes : List Byte) : SameTrunk s (s.bytesArrive p bytes) := by
  rcases held : (s.port p).reception with _ | x
  · rw [State.bytesArrive, held]
    exact .refl s
  · rw [bytesArrive_eq held]
    refine SameTrunk.trans ?_ (.modifyPort _ p _)
    unfold State.bytesAtRoute
    split
    · exact .writePayload s _ _ _
    · exact .refl s

/-- The route of a TO_ROUTE packet is in service (R10, R14). -/
theorem packetEnds_whole (law : s.FrameIntegrity) (p : Fin 4) : (s.packetEnds p).ChannelsWhole := by
  have dropped := integrity_of_cut law (dropPacket_frame s p) (dropPacket_onlyPort s p)
    (by simp [State.dropPacket])
  obtain ⟨⟨-, routed⟩, -, whole⟩ := law
  unfold State.packetEnds
  split
  · next x held =>
    dsimp only
    split
    · next header disposition fields =>
      exact channels_of_carried dropped (routed p x header held disposition fields) (.endAtRoute p x header)
    all_goals obtain ⟨-, -, whole⟩ := dropped
    · split
      · exact (SameTrunk.of_frame (countPort_frame _ p _)).whole whole
      · exact whole
    · exact whole
  · exact whole

/-- A route that is taken out of service has its frame aborted (R33). -/
theorem disableRoute_whole (law : s.FrameIntegrity) {r : Fin 64} (served : (s.route r).gate ≠ .disabled) :
    (s.disableRoute r).ChannelsWhole := by
  have carried : Carried r s (s.disableRoute r) := by
    refine (((Carried.of_ended (endIngressFrame_spec s r .disabled)).trans (.stopIdleTimer _ r)).trans ?_).trans
      (.of_frame (modifyPort_frame _ _ _))
    exact .modifyRoute _ rfl rfl
  exact channels_of_carried law served carried

/-- An accepted write goes to a route that is DISABLED or SHUT, which is not ASSEMBLING (R29, R87). -/
theorem SameTrunk.writeRoute (gates : s.GateLaw) (r : Fin 64) (config : RouteConfig) :
    SameTrunk s (writeRoute s r config).state := by
  unfold Machine.writeRoute
  dsimp only
  split
  · exact .refl s
  · next gate =>
    have out : (s.route r).isAssembling = false := by
      obtain ⟨gates, -⟩ := gates
      obtain ⟨-, shut, disabled⟩ := gates r
      by_cases off : (s.route r).gate = .disabled
      · simp [Route.isAssembling, disabled off]
      · exact shut (by simpa [off] using gate)
    have written : SameTrunk s (s.modifyRoute r fun x => { x with config }) :=
      .modifyRoute s r rfl fun isOpen => absurd isOpen (by simp [out])
    repeat' split
    all_goals first
      | exact .refl s
      | exact written

end Routes

/-! ## Executions -/

/-- A command keeps the channels whole. -/
def KeepsChannels (run : Source → List Byte → State → Execution) : Prop :=
  ∀ src args s, s.FrameIntegrity → (run src args s).state.ChannelsWhole

/-- A command that touches no frame and no record. -/
theorem KeepsChannels.of_same {run : Source → List Byte → State → Execution}
    (h : ∀ src args s, SameTrunk s (run src args s).state) : KeepsChannels run := by
  rintro src args s ⟨-, -, whole⟩
  exact (h src args s).whole whole

/-- The commands whose functions touch neither the table nor the queue. -/
def commandsBesideTheTable : List (Source → List Byte → State → Execution) :=
  [unknownCommand, identify, claim, drop, leaseTime, resetPart, portStatus, routeRead, tableScan, poolStatus,
    trunkStatus, trunkStart, trunkRetrain, noticeAck, noticeReplay, noticeMask, noticeRoute]

theorem beside_keeps {run : Source → List Byte → State → Execution} (h : run ∈ commandsBesideTheTable) :
    KeepsChannels run := by
  refine .of_same fun src args s => ?_
  simp only [commandsBesideTheTable, List.mem_cons, List.not_mem_nil, or_false] at h
  rcases h with rfl | rfl | rfl | rfl | rfl | rfl | rfl | rfl | rfl | rfl | rfl | rfl | rfl | rfl | rfl | rfl | rfl
  all_goals
    simp only [unknownCommand, identify, claim, drop, leaseTime, resetPart, portStatus, routeRead, tableScan,
      poolStatus, trunkStatus, trunkStart, trunkRetrain, noticeAck, noticeReplay, noticeMask, noticeRoute]
    repeat' split
    all_goals exact .of_eq rfl rfl

theorem trunkHalt_keeps_channels : KeepsChannels trunkHalt := .of_same fun src args s => by
  unfold trunkHalt State.haltLink
  dsimp only
  repeat' split
  all_goals exact .of_eq rfl rfl

theorem countersRead_keeps_channels : KeepsChannels countersRead := .of_same fun src args s => by
  have cleared (set : CounterScope) : SameTrunk s (s.clearSet set) := by
    unfold State.clearSet
    split
    · exact .modifyRoute s _ rfl fun _ => rfl
    · exact .of_eq rfl rfl
    · exact .of_eq rfl rfl
    · exact .countSource s _ _
  unfold countersRead
  repeat' split
  all_goals first
    | exact .refl s
    | exact cleared _

theorem gateCommand_keeps_channels {move : State → Fin 64 → Option State}
    (h : ∀ s r t, move s r = some t → SameTrunk s t) : KeepsChannels (gateCommand move) :=
  .of_same fun src args s => by
    unfold gateCommand
    dsimp only
    repeat' split
    all_goals first
      | exact .refl s
      | exact h s _ _ ‹_›

section Gates
variable {s t : State} {r : Fin 64}

theorem SameTrunk.setGate (s : State) (r : Fin 64) (gate : Gate) :
    SameTrunk s (s.modifyRoute r fun x => { x with gate }) := .modifyRoute s r rfl fun _ => rfl

theorem SameTrunk.shutGate (s : State) (r : Fin 64) (reason : ShutReason) (frame : Option Nat) :
    SameTrunk s (s.shutGate r reason frame) := by
  unfold State.shutGate
  split
  all_goals first
    | exact .refl s
    | exact (SameTrunk.setGate s r .shut).trans (.of_frame (raise_frame _ _))

theorem holdGate_same (h : holdGate s r = some t) : SameTrunk s t := by
  unfold holdGate at h
  repeat' split at h
  all_goals first
    | exact Option.some.inj h ▸ .refl s
    | exact Option.some.inj h ▸ .setGate s r _
    | exact Option.some.inj h ▸ .shutGate s r _ _
    | cases h

theorem releaseGate_same (h : releaseGate s r = some t) : SameTrunk s t := by
  unfold releaseGate at h
  split at h
  · cases h
  · exact Option.some.inj h ▸ .setGate s r _

theorem stepGate_same (h : stepGate s r = some t) : SameTrunk s t := by
  unfold stepGate at h
  split at h
  · exact Option.some.inj h ▸ .setGate s r _
  · cases h

end Gates

theorem SameTrunk.setHoldPoint (s : State) (r : Fin 64) (holdPoint : Option HoldPoint) :
    SameTrunk s (s.modifyRoute r fun x => { x with holdPoint }) := .modifyRoute s r rfl fun _ => rfl

theorem holdpointSet_keeps_channels : KeepsChannels holdpointSet := .of_same fun src args s => by
  unfold holdpointSet
  dsimp only
  repeat' split
  all_goals first
    | exact .refl s
    | exact .setHoldPoint s _ _

theorem holdpointClear_keeps_channels : KeepsChannels holdpointClear := .of_same fun src args s => by
  unfold holdpointClear
  repeat' split
  all_goals first
    | exact .refl s
    | exact .setHoldPoint s _ _

theorem routeEnable_keeps_channels : KeepsChannels routeEnable := .of_same fun src args s => by
  unfold routeEnable
  dsimp only
  repeat' split
  all_goals first
    | exact .refl s
    | exact .setGate s _ _

theorem portSet_keeps_channels : KeepsChannels portSet := fun src args s law => by
  obtain ⟨-, -, whole⟩ := id law
  unfold portSet
  repeat' split
  all_goals first
    | exact whole
    | exact setPortMode_whole law _ _ _

theorem routeWrite_keeps_channels : KeepsChannels routeWrite := fun src args s law => by
  obtain ⟨gates, -, whole⟩ := law
  unfold routeWrite
  repeat' split
  all_goals first
    | exact whole
    | exact (SameTrunk.writeRoute gates _ _).whole whole

theorem routeDisable_keeps_channels : KeepsChannels routeDisable := fun src args s law => by
  obtain ⟨-, -, whole⟩ := id law
  unfold routeDisable
  dsimp only
  repeat' split
  · exact whole
  · exact whole
  · next served => exact disableRoute_whole law served
  · exact whole
  · exact whole

/-! ## The control port, the trunk and part resets -/

section Part
variable {s t effect : State} {possible : Bool} {run : Source → List Byte → State → Execution}

theorem SameTrunk.judgeRecord (s : State) (src : Source) (covered check : List Byte) :
    SameTrunk s (s.judgeRecord src covered check) := by
  cases src <;> exact .of_frame (judgeRecord_frame s _ covered check)

theorem SameTrunk.character (s : State) (character : Byte) (stopBit : Bool) :
    SameTrunk s (s.character character stopBit) := by
  have complete (record : List Byte) (length : Nat) : SameTrunk s (s.completeRecord record length) := by
    refine SameTrunk.trans (t := s.endReception) (.of_eq rfl rfl) ?_
    exact .judgeRecord _ _ _ _
  unfold State.character State.idleCharacter State.recordCharacter
  dsimp only
  repeat' split
  all_goals first
    | exact .of_eq rfl rfl
    | exact complete _ _

theorem SameTrunk.expireLease (s : State) : SameTrunk s s.expireLease := by
  unfold State.expireLease
  split
  · next src _ => cases src <;> exact .of_eq rfl rfl
  · exact .of_eq rfl rfl

theorem SameTrunk.takeGrant (s : State) (rest : List Byte) : SameTrunk s (s.takeGrant rest) := by
  unfold State.takeGrant
  repeat' split
  all_goals exact .of_eq rfl rfl

theorem SameTrunk.takeRemote (s : State) (rest : List Byte) : SameTrunk s (s.takeRemote rest) := by
  unfold State.takeRemote
  dsimp only
  repeat' split
  · exact .judgeRecord s _ _ _
  · exact .of_eq rfl rfl
  · exact .of_eq rfl rfl

theorem SameTrunk.acknowledge (s : State) (rest : List Byte) : SameTrunk s (s.acknowledge rest) := by
  unfold State.acknowledge
  repeat' split
  all_goals exact .of_eq rfl rfl

theorem resetAfterReply_whole (whole : s.ChannelsWhole) (src : Source) (straps : Straps) :
    (s.resetAfterReply src straps).ChannelsWhole := by
  unfold State.resetAfterReply
  repeat' split
  · exact partReset_whole s _ _ _
  · exact whole
  · exact whole

theorem completePort_whole (whole : s.ChannelsWhole) (straps : Straps) : (s.completePort straps).ChannelsWhole := by
  unfold State.completePort
  dsimp only
  split
  · exact whole
  · refine resetAfterReply_whole ?_ _ straps
    exact (SameTrunk.of_eq rfl rfl).whole whole
  · exact (SameTrunk.of_eq rfl rfl).whole whole

theorem recordSent_whole (whole : s.ChannelsWhole) : s.recordSent.ChannelsWhole := by
  unfold State.recordSent
  split
  · next record rest queue =>
    have entry (k : Fin 64) : ((State.returnDescriptor { s with queue := rest }).returnSegments record.route
        record.segments).route k =
        if k = record.route then { s.route k with heldSegments := (s.route k).heldSegments - record.segments }
        else s.route k := by
      split
      · next h => subst h; exact State.route_returnSegments_self _ _ _
      · next h => exact State.route_returnSegments_ne _ _ h
    refine whole_of_headSent whole queue (fun r => ?_) fun r => ?_
    · rw [State.countTrunk_route, entry]; split <;> rfl
    · rw [State.countTrunk_route, entry]; split <;> rfl
  · exact whole

theorem completeTrunk_whole (whole : s.ChannelsWhole) (straps : Straps) :
    (s.completeTrunk straps).ChannelsWhole := by
  unfold State.completeTrunk
  dsimp only
  split
  · exact whole
  · exact recordSent_whole ((SameTrunk.of_eq rfl rfl).whole whole)
  · refine resetAfterReply_whole ?_ _ straps
    exact (SameTrunk.of_eq rfl rfl).whole whole
  · exact (SameTrunk.of_eq rfl rfl).whole whole

theorem expireGrace_whole (whole : s.ChannelsWhole) (straps : Straps) : (s.expireGrace straps).ChannelsWhole := by
  unfold State.expireGrace
  split
  · exact partReset_whole s _ _ _
  · exact whole

/-! ## Rows -/

theorem event_whole (h : event s possible effect = .next t) (whole : s.ChannelsWhole)
    (keeps : effect.ChannelsWhole) : t.ChannelsWhole := by
  rcases event_cases h with rfl | ⟨-, rfl⟩
  · exact whole
  · exact (SameTrunk.finish effect).whole keeps

theorem event_same (h : event s possible effect = .next t) (whole : s.ChannelsWhole) (same : SameTrunk s effect) :
    t.ChannelsWhole := event_whole h whole (same.whole whole)

theorem serve_whole (codes : Byte → Bool) (keeps : KeepsChannels run) (law : s.FrameIntegrity)
    (h : s.serve codes run = .next t) : t.ChannelsWhole := by
  obtain ⟨gates, clash, whole⟩ := law
  rcases serve_cases h with rfl | ⟨src, record, rfl⟩
  · exact whole
  · have taken : PartKept s (s.takeRecord src) := (TableKept.takeRecord s src).part
    have same : SameTrunk s (s.takeRecord src) := .of_eq (s.takeRecord_routes src) (s.takeRecord_queue src)
    have ran := keeps src record.arguments _ ⟨taken.gates gates, taken.clashFree clash, same.whole whole⟩
    refine (SameTrunk.finish _).whole (SameTrunk.whole (.of_eq ?_ ?_) ran)
    · simp [State.execute, State.reply]
    · simp [State.execute, State.reply]

theorem serve_beside (codes : Byte → Bool) (h : s.serve codes run = .next t) (law : s.FrameIntegrity)
    (beside : run ∈ commandsBesideTheTable := by simp [commandsBesideTheTable]) : t.ChannelsWhole :=
  serve_whole codes (beside_keeps beside) law h

theorem partReset_finish_whole (s : State) (cause : ResetCause) (epoch : Nat) (straps : Straps) :
    (s.partReset cause epoch straps).finish.ChannelsWhole :=
  (SameTrunk.finish _).whole (partReset_whole s cause epoch straps)

theorem SameTrunk.holdInReset (s : State) (line : ResetLine) : SameTrunk s (s.holdInReset line) := .of_eq rfl rfl

/-- Every command keeps the channels whole. -/
theorem exec_whole (c : Instr) (s t : State) (h : exec c s = .next t) (law : s.FrameIntegrity) : t.ChannelsWhole := by
  obtain ⟨-, -, whole⟩ := id law
  cases c with
  | alignmentAchieved p => exact event_same h whole (.modifyPort s p _)
  | alignmentLost p => exact event_whole h whole (alignmentLost_whole law p)
  | headerEvent p header => exact event_whole h whole (headerArrives_whole law p header)
  | bytesReceived p bytes => exact event_same h whole (.bytesArrive s p bytes)
  | endEvent p => exact event_whole h whole (packetEnds_whole law p)
  | frameIdleExpiry r =>
    obtain ⟨-, -, ended⟩ := integrity_endIngressFrame law r (reason := .idle) (by decide)
    exact event_whole h whole ended
  | characterReceived character stopBit => exact event_same h whole (.character s character stopBit)
  | gapAbort => exact event_same h whole (.of_eq rfl rfl)
  | controlPortCompletion straps => exact event_whole h whole (completePort_whole whole straps)
  | unknownCommand => exact serve_beside (run := unknownCommand) (fun code => !commandCodes.contains code) h law
  | identify => exact serve_beside (run := identify) (· == 0x01) h law
  | claim => exact serve_beside (run := claim) (· == 0x02) h law
  | drop => exact serve_beside (run := drop) (· == 0x03) h law
  | leaseTime => exact serve_beside (run := leaseTime) (· == 0x04) h law
  | resetPart => exact serve_beside (run := resetPart) (· == 0x05) h law
  | portSet => exact serve_whole (· == 0x10) portSet_keeps_channels law h
  | portStatus => exact serve_beside (run := portStatus) (· == 0x11) h law
  | routeRead => exact serve_beside (run := routeRead) (· == 0x20) h law
  | routeWrite => exact serve_whole (· == 0x21) routeWrite_keeps_channels law h
  | routeEnable => exact serve_whole (· == 0x22) routeEnable_keeps_channels law h
  | routeDisable => exact serve_whole (· == 0x23) routeDisable_keeps_channels law h
  | tableScan => exact serve_beside (run := tableScan) (· == 0x24) h law
  | hold => exact serve_whole (· == 0x28) (gateCommand_keeps_channels fun _ _ _ => holdGate_same) law h
  | release => exact serve_whole (· == 0x29) (gateCommand_keeps_channels fun _ _ _ => releaseGate_same) law h
  | step => exact serve_whole (· == 0x2A) (gateCommand_keeps_channels fun _ _ _ => stepGate_same) law h
  | holdpointSet => exact serve_whole (· == 0x2B) holdpointSet_keeps_channels law h
  | holdpointClear => exact serve_whole (· == 0x2C) holdpointClear_keeps_channels law h
  | poolStatus => exact serve_beside (run := poolStatus) (· == 0x30) h law
  | trunkStatus => exact serve_beside (run := trunkStatus) (· == 0x40) h law
  | trunkHalt => exact serve_whole (· == 0x41) trunkHalt_keeps_channels law h
  | trunkStart => exact serve_beside (run := trunkStart) (· == 0x42) h law
  | trunkRetrain => exact serve_beside (run := trunkRetrain) (· == 0x43) h law
  | noticeAck => exact serve_beside (run := noticeAck) (· == 0x50) h law
  | noticeReplay => exact serve_beside (run := noticeReplay) (· == 0x51) h law
  | noticeMask => exact serve_beside (run := noticeMask) (· == 0x52) h law
  | noticeRoute => exact serve_beside (run := noticeRoute) (· == 0x53) h law
  | countersRead => exact serve_whole (· == 0x60) countersRead_keeps_channels law h
  | creditGrant rest => exact event_same h whole (.takeGrant s rest)
  | remoteCommandRecord rest =>
    refine event_same h whole ?_
    split
    · exact .takeRemote s rest
    · exact .of_eq rfl rfl
  | acknowledgement rest => exact event_same h whole (.acknowledge s rest)
  | unknownReverseRecord record => exact event_same h whole (.of_eq rfl rfl)
  | reverseAlignment => exact event_same h whole (.of_eq rfl rfl)
  | signalLoss =>
    refine event_same h whole ?_
    split
    · exact .of_eq rfl rfl
    · exact .of_eq rfl rfl
  | trainTimerExpiry => exact event_same h whole (.of_eq rfl rfl)
  | retryTimerExpiry => exact event_same h whole (.of_eq rfl rfl)
  | transmissionCompletion straps => exact event_whole h whole (completeTrunk_whole whole straps)
  | stallExpiry => exact event_same h whole (.of_eq rfl rfl)
  | leaseExpiry => exact event_same h whole (.expireLease s)
  | graceExpiry straps => exact event_whole h whole (expireGrace_whole whole straps)
  | powerOn straps resetLow =>
    cases resetLow
    · obtain rfl := Host.Outcome.next.inj h
      exact partReset_finish_whole s _ _ _
    · obtain rfl := Host.Outcome.next.inj h
      exact (SameTrunk.holdInReset s _).whole whole
  | resetNAsserted =>
    obtain rfl := Host.Outcome.next.inj h
    split
    · exact (SameTrunk.holdInReset s _).whole whole
    · exact whole
  | resetNReleased straps =>
    replace h : execResetNReleased straps s = .next t := h
    unfold execResetNReleased at h
    split at h
    · obtain rfl := Host.Outcome.next.inj h
      exact whole
    · obtain rfl := Host.Outcome.next.inj h
      exact partReset_finish_whole s _ _ _
    · obtain rfl := Host.Outcome.next.inj h
      exact partReset_finish_whole s _ _ _

end Part

/-- Settles O56: the laws of the table are kept by `step_laws`, and under them the front command keeps every channel
whole. -/
theorem framesStayWhole : Obligations.FramesStayWhole := by
  rintro s t h ⟨gates, clash, whole⟩
  have laws := step_laws h
  refine ⟨laws.gates gates, laws.clashFree clash, ?_⟩
  unfold step at h
  split at h
  · obtain rfl := Host.Outcome.next.inj h
    exact whole
  · next c rest _ => exact exec_whole c { s with pending := rest } t h ⟨gates, clash, whole⟩

end Sys2Proof.Machine
end

section
/-! The statements about opening marks (R41, R43 to R49, R59, R74 to R77): what becomes of a frame that meets the gate,
outcome by outcome, on the part that `markTaken_spec` describes. -/

namespace Sys2Proof.Machine

-- One theorem after another, as in the model's tests.
set_option Elab.async false

/-! ## The outcomes of a frame that meets the gate -/

section Gate
variable {s : State} {r : Fin 64} {mark : OpeningMark}

theorem canAdmit_iff : s.canAdmit r = true ↔ s.pool.Admits (s.route r) := by
  simp [State.canAdmit, Pool.Admits, and_assoc]

/-- An armed hold point is the one its condition tests (R98). -/
theorem Route.HasArmed.armedFor {x : Route} {kind : HoldKind} {condition : HoldCondition}
    (armed : x.HasArmed kind condition) : x.armedFor condition = some { kind, condition, armed := true } := by
  unfold Route.HasArmed at armed
  simp [Route.armedFor, armed]

theorem openFrame_eq_fresh (mark : OpeningMark) (mode : Mode) : mark.openFrame mode = .fresh mark mode := by
  cases mode <;> rfl

/-- Everything that an admission does (R47, R76). -/
theorem admitFrame_spec (s : State) (r : Fin 64) (mark : OpeningMark) :
    let u := s.admitFrame r mark
    let x := s.route r
    u.pool = s.pool.admitted ∧ u.notices = s.notices ∧
    u.queue = s.queue ++
      [.of r x 0 (.opening x.config.mode mark.number mark.declaredLines mark.declaredBytes)] ∧
    u.route r =
      { x with
        assembly := .assembling (.fresh mark x.config.mode) none
        idleTimer := .running x.config.idleLimit
        refusalRun := false
        counters := { x.counters with framesAdmitted := bump x.counters.framesAdmitted } } := by
  refine ⟨rfl, rfl, rfl, ?_⟩
  simp [State.admitFrame, openFrame_eq_fresh]

/-- Everything that a refusal does (R48, R77). -/
theorem refuseFrame_spec (s : State) (r : Fin 64) (mark : OpeningMark) :
    let u := s.refuseFrame r mark
    let x := s.route r
    u.pool = s.pool ∧ u.queue = s.queue ∧
    u.notices = s.notices.raiseAll (if x.refusalRun then [] else [.frameRefused r mark.number]) ∧
    u.route r =
      { x with
        assembly := .skipping
        refusalRun := true
        counters := { x.counters with refused := bump x.counters.refused } } := by
  unfold State.refuseFrame
  dsimp only
  split <;> simp_all [NoticeQueue.raiseAll]

/-- The FORCE effect on a gate (R100). -/
theorem forceGate_eq (s : State) (r : Fin 64) :
    s.forceGate r = s.modifyRoute r fun x => { x with gate := x.gate.forced } := by
  unfold State.forceGate
  split
  · next h => rw [s.modifyRoute_eq, s.modifyRoute_eq, h]; rfl
  · next h =>
    refine (State.modifyRoute_of_eq ?_).symm
    have same : (s.route r).gate.forced = (s.route r).gate := by
      unfold Gate.forced
      split
      · next opened => exact absurd opened h
      · rfl
    rw [same]

/-- A gate in service is shut, and ROUTE_SHUT raised (R93). -/
theorem shutGate_tried {reason : ShutReason} {frame : Option Nat}
    (tried : (s.route r).gate = .opened ∨ (s.route r).gate = .stepping) :
    s.shutGate r reason frame =
      (s.modifyRoute r fun x => { x with gate := .shut }).raise (.routeShut r reason frame) := by
  rcases tried with h | h <;> rw [State.shutGate, h]

theorem meetGate_tried (fired : Option HoldPoint)
    (tried : (s.route r).gate = .opened ∨ (s.route r).gate = .stepping) :
    s.meetGate r mark fired = s.tryFrame r mark fired := by
  rcases tried with h | h <;> rw [State.meetGate, h]

theorem meetGate_shut (fired : Option HoldPoint) (shut : (s.route r).gate = .shut) :
    s.meetGate r mark fired = s.holdOff r := by
  rw [State.meetGate, shut]

/-- The gate of an admitted frame after the hold point that it passed, if there was one (R100). -/
def Gate.forcedBy (gate : Gate) : Option HoldPoint → Gate
  | some _ => gate.forced
  | none => gate

/-- A frame that no TAG stops and that passes the admission test (R47, R100). -/
theorem tryFrame_admits {fired : Option HoldPoint} (passed : ∀ h, fired = some h → h.kind = .force)
    (admits : s.canAdmit r = true) :
    s.tryFrame r mark fired =
      (s.admitFrame r mark).modifyRoute r fun x => { x with gate := x.gate.forcedBy fired } := by
  cases fired with
  | none => simp only [State.tryFrame, Option.map_none, admits, if_true]; exact (State.modifyRoute_of_eq rfl).symm
  | some h => simp only [State.tryFrame, Option.map_some, passed h rfl, admits, if_true, forceGate_eq]; rfl

/-- A frame that no TAG stops and that fails it (R48). -/
theorem tryFrame_refuses {fired : Option HoldPoint} (passed : ∀ h, fired = some h → h.kind = .force)
    (refuses : ¬ s.canAdmit r = true) : s.tryFrame r mark fired = s.refuseFrame r mark := by
  cases fired with
  | none => simp only [State.tryFrame, Option.map_none, if_neg refuses]
  | some h => simp only [State.tryFrame, Option.map_some, passed h rfl, if_neg refuses]

/-- A frame that a TAG stops (R101). -/
theorem tryFrame_tag {h : HoldPoint} (tag : h.kind = .tag) :
    s.tryFrame r mark (some h) = (s.shutGate r .tag (some mark.number)).holdOff r := by
  simp only [State.tryFrame, Option.map_some, tag]

end Gate

/-! ## A good opening mark -/

section Mark
variable {s : State} {p : Fin 4} {x : Reception} {header : PacketHeader} {mark : OpeningMark}

/-- The part in which the frame of a good opening mark meets the gate: `v` is what the firing and the end of the ingress
frame left of `s` (R43, R46, R93, R99). -/
structure MeetsGate (s v : State) (r : Fin 64) (number : Nat) (fired : Option HoldPoint) : Prop where
  route : v.route r = ((s.route r).ended .truncated).disarmedBy fired
  queue : v.queue = s.queue ++ (s.route r).endRecords r .truncated
  pool : v.pool = s.pool.freed (s.route r).lineSegments (s.route r).linesInAssembly
  notices : v.notices =
    s.notices.raiseAll (firedNotices r number fired ++ (s.route r).endNotices r .truncated)

/-- A good opening mark leaves its port, its frame meets the gate, and the timer starts (R41, R43). -/
theorem endEvent_openingMark (ends : PacketEnds s p x header) (code : header.code = 0x00)
    (good : x.openingMark header = some mark) :
    let r := routeOf p header.channel
    let fired := (s.route r).firedByMark mark.number
    ∃ v, MeetsGate s v r mark.number fired ∧
      let u := (v.meetGate r mark fired).startIdleTimer r
      exec (.endEvent p) s = .next u.finish ∧ SameBut s u [.ports, .routes, .pool, .queue, .notices] ∧
      OnlyPort s u p ∧ OnlyRoute s u r ∧ u.port p = { s.port p with reception := none } := by
  intro r fired
  have left := dropPacket_frame s p
  have fires : (((s.dropPacket p).route r).firedByMark mark.number) = fired := by rw [left.route]
  obtain ⟨taken, only, route, queue, pool, notices⟩ := markTaken_spec (s.dropPacket p) r mark.number fired
  rw [left.route] at route queue pool notices
  rw [left.queue] at queue
  rw [left.pool] at pool
  rw [left.notices] at notices
  generalize hv : ((s.dropPacket p).fire r mark.number fired).endIngressFrame r .truncated = v at *
  have out : (v.route r).isAssembling = false := by
    rw [route]
    have out := ended_out (s.route r) .truncated
    cases fired <;> exact out
  have met := meetGate_frame v r mark fired
  have timer := startIdleTimer_frame (v.meetGate r mark fired) r
  have whole := (taken.trans met).trans (timer.mono (by decide))
  refine ⟨v, ⟨route, queue, pool, notices⟩, ?_, (left.mono (by decide)).trans (whole.mono (by decide)),
    (dropPacket_onlyPort s p).trans (whole.onlyPort p),
    (((left.onlyRoute r).trans only).trans (Carried.meetGate mark fired out).only).trans
      (startIdleTimer_onlyRoute _ r), ?_⟩
  · rw [exec_endEvent ends, State.endAtRoute, if_pos code, good]
    simp only [State.openingMark, fires, r] at hv ⊢
    rw [hv]
  · rw [whole.port]
    exact s.port_modifyPort_self p _

/-- A mark that meets no armed hold point of its number fires none (R46). -/
theorem firedByMark_untested {y : Route} {number : Nat} (untested : y.Untested (.frameNumber number)) :
    y.firedByMark number = none := by
  rw [firedByMark_eq, untested.armedFor, ite_self]

/-- A mark that comes to the test fires the armed hold point of its number (R46). -/
theorem firedByMark_armed {y : Route} {number : Nat} {kind : HoldKind}
    (tried : (y.ended .truncated).gate = .opened ∨ (y.ended .truncated).gate = .stepping)
    (armed : y.HasArmed kind (.frameNumber number)) :
    y.firedByMark number = some { kind, condition := .frameNumber number, armed := true } := by
  rw [firedByMark_eq, if_pos tried, armed.armedFor]

theorem disarmedBy_gate (y : Route) (fired : Option HoldPoint) : (y.disarmedBy fired).gate = y.gate := by
  cases fired <;> rfl

theorem ended_refusalRun (y : Route) (reason : AbortReason) : (y.ended reason).refusalRun = y.refusalRun := by
  unfold Route.ended
  split <;> rfl

section Outcomes
variable {v : State} {r : Fin 64} {fired : Option HoldPoint}

/-- The gate that the frame meets is the one that the truncation left. -/
theorem MeetsGate.tried {number : Nat} (met : MeetsGate s v r number fired)
    (tried : ((s.route r).ended .truncated).gate = .opened ∨ ((s.route r).ended .truncated).gate = .stepping) :
    (v.route r).gate = .opened ∨ (v.route r).gate = .stepping := by
  rwa [met.route, disarmedBy_gate]

/-- The admission test speaks of nothing that firing touches (R75). -/
theorem MeetsGate.canAdmit_iff {number : Nat} (met : MeetsGate s v r number fired) :
    v.canAdmit r = true ↔
      (s.pool.freed (s.route r).lineSegments (s.route r).linesInAssembly).Admits ((s.route r).ended .truncated) := by
  rw [Machine.canAdmit_iff, met.route, met.pool]
  cases fired <;> exact Iff.rfl

/-- A frame that no TAG stops is admitted (R47, R76, R100). -/
theorem MeetsGate.admitted (met : MeetsGate s v r mark.number fired)
    (tried : ((s.route r).ended .truncated).gate = .opened ∨ ((s.route r).ended .truncated).gate = .stepping)
    (passed : ∀ h, fired = some h → h.kind = .force)
    (admits : (s.pool.freed (s.route r).lineSegments (s.route r).linesInAssembly).Admits
      ((s.route r).ended .truncated)) :
    let u := (v.meetGate r mark fired).startIdleTimer r
    let y := s.route r
    let e := y.ended .truncated
    u.pool = (s.pool.freed y.lineSegments y.linesInAssembly).admitted ∧
    u.notices = s.notices.raiseAll (firedNotices r mark.number fired ++ y.endNotices r .truncated) ∧
    u.queue = s.queue ++ y.endRecords r .truncated ++
      [.of r y 0 (.opening y.config.mode mark.number mark.declaredLines mark.declaredBytes)] ∧
    u.route r =
      { e.disarmedBy fired with
        gate := e.gate.forcedBy fired
        assembly := .assembling (.fresh mark y.config.mode) none
        idleTimer := .running y.config.idleLimit
        refusalRun := false
        counters := { e.counters with framesAdmitted := bump e.counters.framesAdmitted } } := by
  dsimp only
  have outcome := (meetGate_tried fired (met.tried tried)).trans
    (tryFrame_admits (mark := mark) passed (met.canAdmit_iff.2 admits))
  obtain ⟨pool, notices, queue, route⟩ := admitFrame_spec v r mark
  have timer := startIdleTimer_frame (v.meetGate r mark fired) r
  have config := ended_config (s.route r) .truncated
  refine ⟨?_, ?_, ?_, ?_⟩
  · rw [timer.pool, outcome, State.modifyRoute_pool, pool, met.pool]
  · rw [timer.notices, outcome, State.modifyRoute_notices, notices, met.notices]
  · rw [timer.queue, outcome, State.modifyRoute_queue, queue, met.queue, met.route]
    cases fired <;> simp [Route.disarmedBy, StreamRecord.of, config]
  · rw [route_startIdleTimer, outcome, State.route_modifyRoute_self, route, met.route]
    cases fired <;> simp [Route.disarmedBy, config]

/-- A frame that no TAG stops is refused (R48, R77). -/
theorem MeetsGate.refused (met : MeetsGate s v r mark.number fired)
    (tried : ((s.route r).ended .truncated).gate = .opened ∨ ((s.route r).ended .truncated).gate = .stepping)
    (passed : ∀ h, fired = some h → h.kind = .force)
    (refuses : ¬ (s.pool.freed (s.route r).lineSegments (s.route r).linesInAssembly).Admits
      ((s.route r).ended .truncated)) :
    let u := (v.meetGate r mark fired).startIdleTimer r
    let y := s.route r
    let e := y.ended .truncated
    u.pool = s.pool.freed y.lineSegments y.linesInAssembly ∧
    u.queue = s.queue ++ y.endRecords r .truncated ∧
    u.notices = s.notices.raiseAll (firedNotices r mark.number fired ++ y.endNotices r .truncated
      ++ if y.refusalRun then [] else [.frameRefused r mark.number]) ∧
    u.route r =
      { e.disarmedBy fired with
        assembly := .skipping
        idleTimer := .running y.config.idleLimit
        refusalRun := true
        counters := { e.counters with refused := bump e.counters.refused } } := by
  dsimp only
  have outcome := (meetGate_tried fired (met.tried tried)).trans
    (tryFrame_refuses (mark := mark) passed (mt met.canAdmit_iff.1 refuses))
  obtain ⟨pool, queue, notices, route⟩ := refuseFrame_spec v r mark
  have timer := startIdleTimer_frame (v.meetGate r mark fired) r
  have config := ended_config (s.route r) .truncated
  have run := ended_refusalRun (s.route r) .truncated
  refine ⟨?_, ?_, ?_, ?_⟩
  · rw [timer.pool, outcome, pool, met.pool]
  · rw [timer.queue, outcome, queue, met.queue]
  · rw [timer.notices, outcome, notices, met.notices, met.route, ← raiseAll_append]
    cases fired <;> simp [Route.disarmedBy, run]
  · rw [route_startIdleTimer, outcome, route, met.route]
    cases fired <;> simp [Route.disarmedBy, config]

/-- A frame that is held off at a SHUT gate (R45). -/
theorem MeetsGate.heldOff (met : MeetsGate s v r mark.number none)
    (shut : ((s.route r).ended .truncated).gate = .shut) :
    let u := (v.meetGate r mark none).startIdleTimer r
    let y := s.route r
    let e := y.ended .truncated
    u.pool = s.pool.freed y.lineSegments y.linesInAssembly ∧
    u.queue = s.queue ++ y.endRecords r .truncated ∧
    u.notices = s.notices.raiseAll (y.endNotices r .truncated) ∧
    u.route r =
      { e with
        assembly := .skipping
        idleTimer := .running y.config.idleLimit
        counters := { e.counters with heldOff := bump e.counters.heldOff } } := by
  dsimp only
  have outcome := meetGate_shut (s := v) (r := r) (mark := mark) none (by rw [met.route]; exact shut)
  have off := holdOff_frame v r
  have timer := startIdleTimer_frame (v.meetGate r mark none) r
  refine ⟨?_, ?_, ?_, ?_⟩
  · rw [timer.pool, outcome, off.pool, met.pool]
  · rw [timer.queue, outcome, off.queue, met.queue]
  · rw [timer.notices, outcome, off.notices, met.notices]; rfl
  · rw [route_startIdleTimer, outcome]
    simp [State.holdOff, met.route, Route.disarmedBy, ended_config]

/-- A frame that a TAG holds off, and the gate shuts (R46, R93, R101). -/
theorem MeetsGate.tagged {h : HoldPoint} (met : MeetsGate s v r mark.number (some h)) (tag : h.kind = .tag)
    (tried : ((s.route r).ended .truncated).gate = .opened ∨ ((s.route r).ended .truncated).gate = .stepping) :
    let u := (v.meetGate r mark (some h)).startIdleTimer r
    let y := s.route r
    let e := y.ended .truncated
    u.pool = s.pool.freed y.lineSegments y.linesInAssembly ∧
    u.queue = s.queue ++ y.endRecords r .truncated ∧
    u.notices = s.notices.raiseAll (firedNotices r mark.number (some h) ++ y.endNotices r .truncated
      ++ [.routeShut r .tag (some mark.number)]) ∧
    u.route r =
      { e.disarmedBy (some h) with
        gate := .shut
        assembly := .skipping
        idleTimer := .running y.config.idleLimit
        counters := { e.counters with heldOff := bump e.counters.heldOff } } := by
  dsimp only
  have outcome := (meetGate_tried (mark := mark) (some h) (met.tried tried)).trans (tryFrame_tag tag)
  rw [shutGate_tried (met.tried tried)] at outcome
  have timer := startIdleTimer_frame (v.meetGate r mark (some h)) r
  refine ⟨?_, ?_, ?_, ?_⟩
  · rw [timer.pool, outcome, (holdOff_frame _ r).pool, State.raise_pool, State.modifyRoute_pool, met.pool]
  · rw [timer.queue, outcome, (holdOff_frame _ r).queue, State.raise_queue, State.modifyRoute_queue, met.queue]
  · rw [timer.notices, outcome, (holdOff_frame _ r).notices, State.raise_notices, State.modifyRoute_notices,
      met.notices, raiseAll_append _ (_ ++ _)]
    rfl
  · rw [route_startIdleTimer, outcome]
    simp [State.holdOff, met.route, Route.disarmedBy, ended_config]

end Outcomes

/-- Settles O16: without a hold point the frame is admitted. -/
theorem openingMarkAdmits : Obligations.OpeningMarkAdmits := by
  intro p s x header mark ends code good
  dsimp only
  obtain ⟨v, met, exec, frame, ports, routes, port⟩ := endEvent_openingMark ends code good
  generalize routeOf p header.channel = r at *
  intro tried untested admits
  rw [firedByMark_untested untested] at met exec frame ports routes port
  exact ⟨_, exec, frame, ports, routes, port, met.admitted tried nofun admits⟩

/-- Settles O17: a SHUT gate holds the frame off, and the admission test refuses it. -/
theorem openingMarkIsRefusedHeldOffOrTruncates : Obligations.OpeningMarkIsRefusedHeldOffOrTruncates := by
  intro p s x header mark ends code good
  dsimp only
  obtain ⟨v, met, exec, frame, ports, routes, port⟩ := endEvent_openingMark ends code good
  generalize routeOf p header.channel = r at *
  refine ⟨fun shut => ?_, fun tried untested refuses => ?_⟩
  · have unfired : (s.route r).firedByMark mark.number = none := by
      rw [firedByMark_eq, if_neg (by simp [shut])]
    rw [unfired] at met exec frame ports routes port
    obtain ⟨pool, queue, notices, route⟩ := met.heldOff shut
    exact ⟨_, exec, frame, ports, routes, port, pool, queue, by rw [notices, List.append_nil], route⟩
  · rw [firedByMark_untested untested] at met exec frame ports routes port
    exact ⟨_, exec, frame, ports, routes, port, met.refused tried nofun refuses⟩

end Mark

end Sys2Proof.Machine
end

section
/-! The statements about closing marks and about the three expiries. -/

namespace Sys2Proof.Machine

-- One theorem after another, as in the model's tests.
set_option Elab.async false

/-! ## Expiries -/

/-- Settles O50: each expiry is its one operation; `endIngressFrame_spec` says what the first one does. -/
theorem expiriesActOnce : Obligations.ExpiriesActOnce := by
  refine fun s high => ⟨fun r runs => ?_, fun runs => ?_, fun src runs holder => ?_⟩
  · exact ⟨_, event_possible _ high runs, endIngressFrame_spec s r .idle⟩
  · refine ⟨s.expireStall, event_possible _ high runs, ?_, rfl, rfl, rfl⟩
    intro piece hp
    cases piece <;> first | rfl | exact absurd (by decide) hp
  · have expires : s.expireLease =
        (State.countSource { s with lease := { s.lease with holder := none, timer := .stopped } } src fun c =>
          { c with leaseExpiries := bump c.leaseExpiries }).raise (.leaseLost src) := by
      rw [State.expireLease, holder]
    refine ⟨s.expireLease, event_possible _ high runs, ?_⟩
    rw [expires]
    refine ⟨?_, by simp, by cases src <;> rfl, by simp⟩
    intro piece hp
    cases src <;> cases piece <;> first | rfl | exact absurd (by decide) hp

/-! ## Closing marks -/

section Closing
variable {s : State} {p : Fin 4} {r : Fin 64} {x : Reception} {header : PacketHeader} {frame : OpenFrame} {number : Nat}

/-- A good closing mark leaves its port, then meets its route, and at last the timer starts. -/
theorem endEvent_closingMark (ends : PacketEnds s p x header) (code : header.code = 0x01)
    (good : x.closingMark header = some number) :
    exec (.endEvent p) s = .next (((s.dropPacket p).closingMark (routeOf p header.channel) number).startIdleTimer
      (routeOf p header.channel)).finish := by
  rw [exec_endEvent ends, State.endAtRoute, if_neg (by omega), if_pos (by omega), good]

theorem frameEndStep_notices (s : State) (r : Fin 64) (number : Nat) :
    (s.frameEndStep r number).notices = s.notices.raiseAll (closeNotices r (s.route r).gate number) := by
  rcases gate : (s.route r).gate <;>
    simp [State.frameEndStep, State.shutGate, closeNotices, gate, NoticeQueue.raiseAll]

/-- Everything that closing a frame with no line in assembly does (R60, R92). -/
theorem closeFrame_spec (assembly : (s.route r).assembly = .assembling frame none) :
    let u := s.closeFrame r frame number
    let y := s.route r
    SameBut s u [.routes, .queue, .notices] ∧ OnlyRoute s u r ∧
    u.queue = s.queue ++
      [.of r y 0
        (.closing frame.damagedLines frame.overrun (decide (number ≠ frame.number))
          (decide (frame.received < frame.declaredLines)) frame.number frame.forwarded frame.sealValue)] ∧
    u.notices = s.notices.raiseAll (closeNotices r y.gate frame.number) ∧
    u.route r =
      { y with
        assembly := .idle
        idleTimer := .stopped
        gate := y.gate.afterClose
        counters :=
          { y.counters with
            framesClosed := bump y.counters.framesClosed
            shortFrames := if frame.received < frame.declaredLines then bump y.counters.shortFrames
              else y.counters.shortFrames
            mismatches := if number ≠ frame.number then bump y.counters.mismatches else y.counters.mismatches } } := by
  have free : s.freeLine r = s := by rw [State.freeLine, assembly]
  have short : frame.isShort = decide (frame.received < frame.declaredLines) := rfl
  have mismatch : frame.isMismatch number = decide (number ≠ frame.number) := by
    rw [Bool.eq_iff_iff]; simp [OpenFrame.isMismatch]
  dsimp only [State.closeFrame]
  rw [free, short, mismatch]
  refine ⟨?_, ?_, ?_, ?_, ?_⟩
  · exact (((((enqueue_frame s r _ _).mono (by decide)).trans ((countRoute_frame _ r _).mono (by decide))).trans
      ((setAssembly_frame _ r _).mono (by decide))).trans ((stopIdleTimer_frame _ r).mono (by decide))).trans
      ((frameEndStep_frame _ r _).mono (by decide))
  · exact (((((enqueue_frame s r _ _).onlyRoute r).trans (countRoute_onlyRoute _ r _)).trans
      (setAssembly_onlyRoute _ r _)).trans (stopIdleTimer_onlyRoute _ r)).trans (frameEndStep_onlyRoute _ r _)
  · rw [(frameEndStep_frame _ r _).queue]; rfl
  · rw [frameEndStep_notices]; simp
  · rw [route_frameEndStep]; simp

end Closing

/-- Settles O19: the mark leaves its port, and the assembly state says which of the three it does; at an IDLE route the
timer does not start. -/
theorem closingMarkCloses : Obligations.ClosingMarkCloses := by
  intro p s x header number ends code good
  have exec := endEvent_closingMark ends code good
  have left := dropPacket_frame s p
  have onlyPort := dropPacket_onlyPort s p
  have port : (s.dropPacket p).port p = { s.port p with reception := none } := s.port_modifyPort_self p _
  dsimp only
  generalize routeOf p header.channel = r at *
  generalize s.dropPacket p = v at *
  have same := left.route r
  have timer := startIdleTimer_frame (v.closingMark r number) r
  have taken {changed : List Piece} (frame : SameBut v (v.closingMark r number) changed)
      (only : OnlyRoute v (v.closingMark r number) r) (n : Piece.ports ∉ changed := by decide) :
      SameBut s ((v.closingMark r number).startIdleTimer r) (.ports :: .routes :: changed) ∧
      OnlyPort s ((v.closingMark r number).startIdleTimer r) p ∧
      OnlyRoute s ((v.closingMark r number).startIdleTimer r) r ∧
      ((v.closingMark r number).startIdleTimer r).port p = { s.port p with reception := none } :=
    ⟨((left.mono (by simp)).trans (frame.mono (by simp +contextual))).trans (timer.mono (by simp)),
      (onlyPort.trans (frame.onlyPort p n)).trans (timer.onlyPort p),
      ((left.onlyRoute r).trans only).trans (startIdleTimer_onlyRoute _ r), by rw [timer.port, frame.port p n, port]⟩
  refine ⟨fun frame assembly => ?_, fun skipping => ?_, fun idle => ?_⟩
  · obtain ⟨closed, only, queue, notices, route⟩ := closeFrame_spec (number := number) (same.symm ▸ assembly)
    have closes : v.closingMark r number = v.closeFrame r frame number := by
      rw [State.closingMark, same, assembly]
    rw [← closes] at closed only queue notices route
    obtain ⟨whole, ports, routes, here⟩ := taken closed only
    refine ⟨_, exec, whole.mono (by decide), ports, routes, here, ?_, ?_, ?_⟩
    · rw [timer.queue, queue, left.queue, same]
    · rw [timer.notices, notices, left.notices, same]
    · rw [route_startIdleTimer, route, same]; simp
  · have skips : v.closingMark r number = ((v.setAssembly r .idle).stopIdleTimer r).countRoute r fun c =>
        { c with skippedPackets := bump c.skippedPackets } := by
      rw [State.closingMark, same, skipping]
    obtain ⟨whole, ports, routes, here⟩ := taken (changed := [.routes])
      (skips ▸ ((setAssembly_frame v r _).trans (stopIdleTimer_frame _ r)).trans (countRoute_frame _ r _))
      (skips ▸ ((setAssembly_onlyRoute v r _).trans (stopIdleTimer_onlyRoute _ r)).trans (countRoute_onlyRoute _ r _))
    refine ⟨_, exec, whole.mono (by decide), ports, routes, here, ?_⟩
    rw [route_startIdleTimer, skips]
    simp [same]
  · have counts : v.closingMark r number = v.countRoute r fun c => { c with orphans := bump c.orphans } := by
      rw [State.closingMark, same, idle]
    obtain ⟨whole, ports, routes, here⟩ := taken (changed := [.routes])
      (counts ▸ countRoute_frame v r _) (counts ▸ countRoute_onlyRoute v r _)
    refine ⟨_, exec, whole.mono (by decide), ports, routes, here, ?_⟩
    rw [route_startIdleTimer, counts]
    simp [same, idle]

end Sys2Proof.Machine
end

section
/-! The statement about headers at an ASSEMBLING route that take no segment (R51 to R53, R79). -/

namespace Sys2Proof.Machine

-- One theorem after another, as in the model's tests.
set_option Elab.async false

/-! ## A header at an ASSEMBLING route -/

/-- The part once a header became the packet in reception and its route's timer stopped: what the assembly state then
meets (R4, R10, R41). -/
def State.headerMet (s : State) (p : Fin 4) (r : Fin 64) (f : PacketHeader) : State :=
  (s.begun p f .toRoute).stopIdleTimer r

section Met
variable {s u : State} {p : Fin 4} {r : Fin 64} {header : Header} {f : PacketHeader} {frame : OpenFrame}
  {line : Option LineInAssembly}

/-- A line or side header at an ASSEMBLING route comes to the hold-point test of its content code (R10, R50). -/
theorem exec_headerEvent_assembling (comes : HeaderComes s p) (passes : headerPasses header = true)
    (code : 0x08 ≤ (headerFields header).code)
    (enabled : (s.route (routeOf p (headerFields header).channel)).gate ≠ .disabled)
    (assembly : (s.route (routeOf p (headerFields header).channel)).assembly = .assembling frame line) :
    exec (.headerEvent p header) s =
      .next ((s.headerMet p (routeOf p (headerFields header).channel) (headerFields header)).assembleHeader p
        (routeOf p (headerFields header).channel) (headerFields header) frame).finish := by
  have same := (begun_frame s p (headerFields header) .toRoute).route (routeOf p (headerFields header).channel)
  rw [exec_headerEvent comes, headerArrives_eq passes]
  dsimp only
  rw [if_neg (by omega), if_neg enabled, State.routeHeader, if_neg (by omega)]
  simp only [State.route_stopIdleTimer_self, same, assembly, State.headerMet]

theorem route_headerMet : (s.headerMet p r f).route r = { s.route r with idleTimer := .stopped } := by
  simp [State.headerMet, (begun_frame s p f .toRoute).route]

theorem headerMet_notices : (s.headerMet p r f).notices = s.notices.raiseAll ((s.port p).upNotices p) := by
  rw [State.headerMet, (stopIdleTimer_frame _ r).notices, State.begun_notices]

theorem headerMet_frame : SameBut s (s.headerMet p r f) [.ports, .routes, .notices] :=
  ((begun_frame s p f .toRoute).mono (by decide)).trans ((stopIdleTimer_frame _ r).mono (by decide))

/-- What the header did to its port stands, whatever its route then does. -/
theorem SameBut.after_headerMet {changed : List Piece} (frame : SameBut (s.headerMet p r f) u changed)
    (only : OnlyRoute (s.headerMet p r f) u r) (n : Piece.ports ∉ changed := by decide) :
    SameBut s u ([.ports, .routes, .notices] ++ changed) ∧ OnlyPort s u p ∧ OnlyRoute s u r ∧
      u.port p = (s.port p).headed (newReception (some f) .toRoute) fun c => c := by
  have timer := stopIdleTimer_frame (s.begun p f .toRoute) r
  refine ⟨(headerMet_frame.mono (by simp +contextual)).trans (frame.mono (by simp +contextual)), ?_, ?_, ?_⟩
  · exact ((begun_onlyPort s p f .toRoute).trans (timer.onlyPort p)).trans (frame.onlyPort p n)
  · exact (((begun_frame s p f .toRoute).onlyRoute r).trans (stopIdleTimer_onlyRoute _ r)).trans only
  · rw [frame.port p n, State.headerMet, timer.port, State.port_begun]

end Met

/-! ## Headers that take nothing -/

section Passing
variable {s : State} {p : Fin 4} {r : Fin 64} {header : PacketHeader} {frame : OpenFrame} {line : Option LineInAssembly}

/-- A line beyond the declared lines marks its frame and is counted (R51). -/
theorem countLine_overrun (assembly : (s.route r).assembly = .assembling frame line) (isLine : 0x10 ≤ header.code)
    (beyond : frame.declaredLines ≤ frame.received) :
    s.countLine p r header frame =
      (s.setAssembly r (.assembling { frame with overrun := true } line)).countRoute r fun c =>
        { c with overrunLines := bump c.overrunLines } := by
  rw [State.countLine, if_pos (isLineCode_eq_true.2 isLine), if_neg (Nat.not_lt.2 beyond)]
  simp [State.modifyFrame, assembly]

/-- The filter counts a packet whose code it does not list (R52). -/
theorem filterPacket_filtered (lists : (s.route r).config.filter ≠ [])
    (unlisted : header.code ∉ (s.route r).config.filter) :
    s.filterPacket p r header = s.countRoute r fun c => { c with filtered := bump c.filtered } := by
  simp [State.filterPacket, lists, unlisted]

/-- A packet whose resources are not there aborts its frame and is skipped (R53, R79). -/
theorem allocate_starved (starved : ¬ Allocates s r (segmentsNeeded header.length)) :
    s.allocate p r header =
      (s.abort r .starved).countRoute r fun c => { c with skippedPackets := bump c.skippedPackets } := by
  rw [State.allocate, segmentsFor_eq]
  exact if_neg (mt canAllocate_iff.1 starved)

/-- A pool that ended as it was is no changed piece. -/
theorem SameBut.without_pool {t : State} {changed : List Piece} (frame : SameBut s t (.pool :: changed))
    (pool : t.pool = s.pool) : SameBut s t changed := fun piece out => by
  by_cases isPool : piece = .pool
  · subst isPool; exact pool
  · exact frame piece (by simp [isPool, out])

/-- Everything that aborting a frame with no line in assembly and skipping its packet does: nothing goes back to the
pool (R50, R53, R62, R63). -/
theorem abort_skip_spec (reason : AbortReason) (assembly : (s.route r).assembly = .assembling frame none) :
    let u := (s.abort r reason).countRoute r fun c => { c with skippedPackets := bump c.skippedPackets }
    let y := s.route r
    SameBut s u [.routes, .queue, .notices] ∧ OnlyRoute s u r ∧
    u.queue = s.queue ++ [abortRecord r y frame reason] ∧
    u.notices = s.notices.raiseAll (abortNotices r y.gate reason frame.number) ∧
    u.route r =
      { y with
        assembly := reason.assemblyAfter
        gate := y.gate.afterAbort reason
        idleTimer := .stopped
        counters := { y.counters.countAbort reason with skippedPackets := bump y.counters.skippedPackets } } := by
  obtain ⟨same, only, route, queue, pool, notices⟩ := abort_spec s r reason frame none assembly
  have counted := countRoute_frame (s.abort r reason) r fun c => { c with skippedPackets := bump c.skippedPackets }
  have kept : (s.abort r reason).pool = s.pool := by
    rw [pool, Route.lineSegments, Route.linesInAssembly, assembly]; rfl
  have skipped : ((s.route r).counters.countAbort reason).skippedPackets = (s.route r).counters.skippedPackets := by
    cases reason <;> rfl
  refine ⟨?_, only.trans (countRoute_onlyRoute _ r _), ?_, ?_, ?_⟩
  · exact ((same.mono (by decide)).without_pool kept).trans (counted.mono (by decide))
  · rw [counted.queue, queue, Route.endRecords, assembly]
  · rw [counted.notices, notices, Route.endNotices, assembly]
  · rw [State.route_countRoute_self, route]
    simp [Route.ended, Route.lineSegments, assembly, skipped]

/-- A header that only moves its frame and a counter of its route. -/
theorem headerEvent_recounted {f : PacketHeader} {header : Header} {a : Assembly}
    {count : RouteCounters → RouteCounters}
    (runs : exec (.headerEvent p header) s =
      .next (((s.headerMet p r f).setAssembly r a).countRoute r count).finish) :
    ∃ u, exec (.headerEvent p header) s = .next u.finish ∧ SameBut s u [.ports, .routes, .notices] ∧
      OnlyPort s u p ∧ OnlyRoute s u r ∧
      u.port p = (s.port p).headed (newReception (some f) .toRoute) (fun c => c) ∧
      u.notices = s.notices.raiseAll ((s.port p).upNotices p) ∧
      u.route r =
        { s.route r with idleTimer := .stopped, assembly := a, counters := count (s.route r).counters } := by
  have counted := (setAssembly_frame (s.headerMet p r f) r a).trans (countRoute_frame _ r count)
  obtain ⟨whole, ports, routes, port⟩ :=
    counted.after_headerMet ((setAssembly_onlyRoute _ r a).trans (countRoute_onlyRoute _ r count))
  refine ⟨_, runs, whole.mono (by decide), ports, routes, port, ?_, ?_⟩
  · rw [counted.notices, headerMet_notices]
  · rw [State.route_countRoute_self, State.route_setAssembly_self, route_headerMet]

end Passing

/-- Settles O12: each outcome is one operation on the part that `State.headerMet` names. -/
theorem headerIsOverrunFilteredOrStarved : Obligations.HeaderIsOverrunFilteredOrStarved := by
  intro p header s frame comes passes
  dsimp only
  intro code enabled assembly untested
  have exec := exec_headerEvent_assembling comes passes code enabled assembly
  generalize headerFields header = f at *
  generalize routeOf p f.channel = r at *
  have route : (s.headerMet p r f).route r = { s.route r with idleTimer := .stopped } := route_headerMet
  have same := headerMet_frame (s := s) (p := p) (r := r) (f := f)
  have assembled : ((s.headerMet p r f).route r).assembly = .assembling frame none := by rw [route, assembly]
  rw [assembleHeader_untested (by rw [route]; exact untested)] at exec
  refine ⟨fun isLine beyond => ?_, fun within lists unlisted => ?_, fun within listed starved => ?_⟩
  · rw [countLine_overrun assembled isLine beyond] at exec
    exact headerEvent_recounted exec
  · rw [countLine_within assembled within, filterPacket_filtered (by simpa [route] using lists)
      (by simpa [route] using unlisted)] at exec
    exact headerEvent_recounted exec
  · rw [countLine_within assembled within, filterPacket_passes (by simpa [route] using listed),
      allocate_starved (by simpa [Allocates, route, same.pool] using starved)] at exec
    generalize hc : ({ frame with received := if 0x10 ≤ f.code then frame.received + 1 else frame.received } :
      OpenFrame) = counted at *
    have set := setAssembly_frame (s.headerMet p r f) r (.assembling counted none)
    have ready : (((s.headerMet p r f).setAssembly r (.assembling counted none)).route r).assembly =
        .assembling counted none := by simp
    obtain ⟨ended, only, queue, raised, final⟩ := abort_skip_spec .starved ready
    obtain ⟨whole, ports, routes, port⟩ :=
      ((set.mono (by decide)).trans ended).after_headerMet ((setAssembly_onlyRoute _ r _).trans only)
    refine ⟨_, exec, whole.mono (by decide), ports, routes, port, ?_, ?_, ?_⟩
    · rw [raised, set.notices, headerMet_notices, raiseAll_append, ← hc]; simp [route]
    · rw [queue, set.queue, same.queue]; simp [abortRecord, route]
    · rw [final]; simp [route, AbortReason.assemblyAfter]

end Sys2Proof.Machine
end

section
/-! The statements about the hold points that a mark, a header or a damaged line fires (R46, R50, R56, R93, R94, R99 to
R101). -/

namespace Sys2Proof.Machine

-- One theorem after another, as in the model's tests.
set_option Elab.async false

/-! ## A TAG hold point -/

section Tag
variable {s : State} {p : Fin 4} {r : Fin 64} {header : PacketHeader} {frame : OpenFrame} {line : LineInAssembly}
  {condition : HoldCondition}

/-- Everything that firing does (R99). -/
theorem fireHoldPoint_spec (s : State) (r : Fin 64) (number : Nat) (h : HoldPoint) :
    let u := s.fireHoldPoint r number h
    SameBut s u [.routes, .notices] ∧ OnlyRoute s u r ∧ u.route r = (s.route r).disarmedBy (some h) ∧
    u.notices = s.notices.raiseAll (firedNotices r number (some h)) :=
  ⟨fireHoldPoint_frame s r number h, (modifyRoute_onlyRoute s r _).trans ((raise_frame _ _).onlyRoute r),
    by simp [State.fireHoldPoint, Route.disarmedBy], rfl⟩

/-- A TAG hold point on the content code aborts the frame, and the packet is skipped (R50, R101). -/
theorem assembleHeader_tag (armed : (s.route r).HasArmed .tag (.content header.code)) :
    s.assembleHeader p r header frame =
      ((s.fireHoldPoint r frame.number { kind := .tag, condition := .content header.code, armed := true }).abort r
        .hold).countRoute r fun c => { c with skippedPackets := bump c.skippedPackets } := by
  rw [State.assembleHeader, armed.armedFor]

/-- A TAG hold point on damage aborts the frame (R56, R101). -/
theorem packetEnd_tag {long : Bool} (assembly : (s.route r).assembly = .assembling frame (some line))
    (armed : (s.route r).HasArmed .tag .damage) :
    s.packetEnd r true long =
      (s.fireHoldPoint r frame.number { kind := .tag, condition := .damage, armed := true }).abort r .hold := by
  simp only [State.packetEnd, assembly, if_true, State.damagedLine, armed.armedFor]

/-- Everything that a TAG does to an open frame: it fires, and then the frame aborts (R56, R99, R101). -/
theorem fired_abort_spec {current : Option LineInAssembly} (h : HoldPoint)
    (assembly : (s.route r).assembly = .assembling frame current) :
    let u := (s.fireHoldPoint r frame.number h).abort r .hold
    let y := s.route r
    SameBut s u [.routes, .pool, .queue, .notices] ∧ OnlyRoute s u r ∧
    u.route r = (y.ended .hold).disarmedBy (some h) ∧
    u.queue = s.queue ++ [abortRecord r y frame .hold] ∧
    u.pool = s.pool.freed y.lineSegments y.linesInAssembly ∧
    u.notices = s.notices.raiseAll
      (firedNotices r frame.number (some h) ++ abortNotices r y.gate .hold frame.number) := by
  obtain ⟨fired, onlyFired, disarms, raised⟩ := fireHoldPoint_spec s r frame.number h
  obtain ⟨ended, onlyEnded, route, queue, pool, notices⟩ :=
    abort_spec (s.fireHoldPoint r frame.number h) r .hold frame current (by rw [disarms]; exact assembly)
  obtain ⟨e1, e2, e3, e4, e5⟩ := ended_disarmedBy (s.route r) r (some h) .hold
  rw [disarms] at route queue pool notices
  refine ⟨(fired.mono (by decide)).trans ended, onlyFired.trans onlyEnded, by rw [route, e1], ?_, ?_, ?_⟩
  · rw [queue, e2, fired.queue, Route.endRecords, assembly]
  · rw [pool, e4, e5, fired.pool]
  · rw [notices, e3, raised, ← raiseAll_append, Route.endNotices, assembly]

/-- A packet is damaged exactly when it is not intact or LONG (R12). -/
theorem damaged_iff {x : Reception} :
    (!x.intact header || x.long) = true ↔ x.intact header = false ∨ x.long = true := by
  simp

end Tag

/-- Settles O21: the TAG fires, then a mark's frame meets the shut gate, and an open frame aborts. -/
theorem tagHoldPointStopsTheFrame : Obligations.TagHoldPointStopsTheFrame := by
  refine ⟨fun p s x header mark ends code good => ?_, fun p header s frame comes passes => ?_,
    fun p s x header frame line ends code => ?_⟩
  all_goals dsimp only
  · obtain ⟨v, met, exec, frame, ports, routes, port⟩ := endEvent_openingMark ends code good
    generalize routeOf p header.channel = r at *
    intro tried armed
    rw [firedByMark_armed tried armed] at met exec frame ports routes port
    exact ⟨_, exec, frame, ports, routes, port, met.tagged rfl tried⟩
  · intro code enabled assembly armed
    have exec := exec_headerEvent_assembling comes passes code enabled assembly
    generalize headerFields header = f at *
    generalize routeOf p f.channel = r at *
    have route : (s.headerMet p r f).route r = { s.route r with idleTimer := .stopped } := route_headerMet
    rw [assembleHeader_tag (by rw [route]; exact armed)] at exec
    generalize hh : ({ kind := .tag, condition := .content f.code, armed := true } : HoldPoint) = h at *
    obtain ⟨fired, only, disarms, raised⟩ := fireHoldPoint_spec (s.headerMet p r f) r frame.number h
    rw [route] at disarms
    obtain ⟨ended, onlyEnded, queue, notices, final⟩ := abort_skip_spec .hold
      ((congrArg Route.assembly disarms).trans assembly)
    obtain ⟨whole, ports, routes, port⟩ := ((fired.mono (by decide)).trans ended).after_headerMet (only.trans onlyEnded)
    refine ⟨_, exec, whole.mono (by decide), ports, routes, port, ?_, ?_, ?_⟩
    · rw [queue, fired.queue, headerMet_frame.queue, disarms]; rfl
    · rw [notices, raised, headerMet_notices, disarms, raiseAll_append, ← hh]; rfl
    · rw [final, disarms, ← hh]; rfl
  · intro assembly damaged armed
    obtain ⟨v, exec, left, only, port⟩ := endEvent_line ends code
    generalize routeOf p header.channel = r at *
    have same := left.route r
    rw [damaged_iff.2 damaged, packetEnd_tag (same ▸ assembly) (same ▸ armed)] at exec
    obtain ⟨stopped, onlyRoute, route, queue, pool, notices⟩ :=
      fired_abort_spec { kind := .tag, condition := .damage, armed := true } (same ▸ assembly)
    have timer {u : State} := startIdleTimer_frame u r
    refine ⟨_, exec, ((left.mono (by decide)).trans (stopped.mono (by decide))).trans (timer.mono (by decide)),
      (only.trans (stopped.onlyPort p)).trans (timer.onlyPort p),
      ((left.onlyRoute r).trans onlyRoute).trans (startIdleTimer_onlyRoute _ r), ?_, ?_, ?_, ?_, ?_⟩
    · rw [timer.port, stopped.port, port]
    · rw [timer.queue, queue, left.queue, same]
    · rw [timer.pool, pool, left.pool, same, Route.lineSegments, Route.linesInAssembly, assembly]
    · rw [timer.notices, notices, left.notices, same]; rfl
    · rw [route_startIdleTimer, route, same]
      simp [Route.ended, assembly, AbortReason.assemblyAfter, Route.disarmedBy, disarmed]

/-! ## A FORCE hold point -/

/-- The part once a FORCE hold point fired and took its effect on the gate (R99, R100). -/
def State.forced (s : State) (r : Fin 64) (number : Nat) (condition : HoldCondition) : State :=
  (s.setRoute r
    { s.route r with holdPoint := disarmed .force condition, gate := (s.route r).gate.forced }).raise
    (.holdFired r number .force condition.name)

section Force
variable {s : State} {p : Fin 4} {r : Fin 64} {frame : OpenFrame} {number : Nat} {condition : HoldCondition}

theorem fireHoldPoint_forceGate :
    (s.fireHoldPoint r number { kind := .force, condition, armed := true }).forceGate r =
      s.forced r number condition := by
  rw [forceGate_eq, State.modifyRoute_eq, State.fireHoldPoint, State.modifyRoute_eq, State.raise_route,
    State.route_setRoute_self]
  exact congrArg (State.raise · _) (s.setRoute_setRoute r _ _)

theorem route_forced :
    (s.forced r number condition).route r =
      { s.route r with holdPoint := disarmed .force condition, gate := (s.route r).gate.forced } := by
  rw [State.forced, State.raise_route, State.route_setRoute_self]

/-- The hold point that fired is disarmed (R99). -/
theorem forced_untested (tested : HoldCondition) : ((s.forced r number condition).route r).Untested tested := by
  rw [route_forced]
  intro h held isArmed
  cases held
  cases isArmed

theorem Gate.forced_ne_disabled {gate : Gate} (enabled : gate ≠ .disabled) : gate.forced ≠ .disabled := by
  unfold Gate.forced
  split
  · exact nofun
  · exact enabled

/-- The packet goes on from the part that the FORCE left (R50, R100). -/
theorem assembleHeader_force {header : PacketHeader} (armed : (s.route r).HasArmed .force (.content header.code)) :
    s.assembleHeader p r header frame =
      (s.forced r frame.number (.content header.code)).assembleHeader p r header frame := by
  rw [assembleHeader_untested (forced_untested _), State.assembleHeader, armed.armedFor]
  dsimp only
  rw [fireHoldPoint_forceGate]

/-- The damaged line goes on from the part that the FORCE left (R56, R100). -/
theorem packetEnd_force {line : LineInAssembly} {long : Bool}
    (assembly : (s.route r).assembly = .assembling frame (some line)) (armed : (s.route r).HasArmed .force .damage) :
    s.packetEnd r true long = (s.forced r frame.number .damage).packetEnd r true long := by
  have kept : ((s.forced r frame.number .damage).route r).assembly = .assembling frame (some line) := by
    rw [route_forced, assembly]
  rw [packetEnd_damaged kept (forced_untested _)]
  simp only [State.packetEnd, assembly, if_true, State.damagedLine, armed.armedFor, fireHoldPoint_forceGate]

/-- The timer of the route plays no part in what the FORCE does. -/
theorem stopIdleTimer_forced :
    (s.forced r number condition).stopIdleTimer r = (s.stopIdleTimer r).forced r number condition := by
  rw [State.forced, State.forced, State.route_stopIdleTimer_self, State.stopIdleTimer, State.modifyRoute_eq,
    State.raise_route, State.route_setRoute_self, State.stopIdleTimer, State.modifyRoute_eq, State.setRoute_setRoute]
  exact congrArg (State.raise · _) (s.setRoute_setRoute r _ _)

/-- A header at an ACTIVE port touches nothing that the FORCE touches but the timer of the route (R10, R100). -/
theorem headerMet_forced {f : PacketHeader} (active : (s.port p).state = .active) :
    (s.forced r number condition).headerMet p r f = (s.headerMet p r f).forced r number condition := by
  have idle {t : State} (active : (t.port p).state = .active) : t.activatePort p = t := by
    rw [State.activatePort, active]
  have kept : ((s.forced r number condition).port p).state = .active := active
  simp only [State.headerMet, State.begun, idle active, idle kept, ← stopIdleTimer_forced]
  rfl

/-- A packet's end touches nothing that the FORCE touches (R12, R100). -/
theorem dropLine_forced {intact : Bool} :
    (s.forced r number condition).dropLine p intact = (s.dropLine p intact).forced r number condition := rfl

end Force

/-- Settles O22: the part with the hold point fired is the one from which an event without a hold point goes on. -/
theorem forceHoldPointClosesTheGate : Obligations.ForceHoldPointClosesTheGate := by
  refine ⟨fun p s x header mark ends code good => ?_, fun p header s frame line comes active passes => ?_,
    fun p s x header frame line ends code => ?_⟩
  all_goals dsimp only
  · obtain ⟨v, met, exec, frame, ports, routes, port⟩ := endEvent_openingMark ends code good
    generalize routeOf p header.channel = r at *
    intro tried armed
    rw [firedByMark_armed tried armed] at met exec frame ports routes port
    have passed : ∀ h : HoldPoint,
        some { kind := .force, condition := .frameNumber mark.number, armed := true } = some h → h.kind = .force := by
      rintro h ⟨⟩; rfl
    refine ⟨_, exec, frame, ports, routes, port, fun admits => ?_, fun refuses => ?_⟩
    · exact met.admitted tried passed admits
    · obtain ⟨pool, queue, notices, route⟩ := met.refused tried passed refuses
      exact ⟨pool, notices, queue, route⟩
  · intro code enabled assembly armed
    change _ = exec _ (s.forced _ _ _)
    have kept := route_forced (s := s) (r := routeOf p (headerFields header).channel) (number := frame.number)
      (condition := .content (headerFields header).code)
    rw [exec_headerEvent_assembling comes passes code enabled assembly,
      exec_headerEvent_assembling (s := s.forced _ _ _) comes passes code
        (by rw [kept]; exact Gate.forced_ne_disabled enabled) (by rw [kept]; exact assembly), headerMet_forced active,
      assembleHeader_force (by rw [route_headerMet]; exact armed)]
  · intro assembly damaged armed
    change _ = exec _ (s.forced _ _ _)
    rw [exec_endEvent ends, exec_endEvent (s := s.forced _ _ _) ends, endAtRoute_line code, endAtRoute_line code,
      damaged_iff.2 damaged, dropLine_forced, packetEnd_force (s := s.dropLine p _) assembly armed]

end Sys2Proof.Machine
end

section
/-! SUPPORT. Conservation of segments and descriptors (R68, R73). `Accounted r s t` says of an operation on one route
that what the pool gives or takes is what the route and the queue take or give; it is put together along the operations'
own composition, and `PoolKept.of_accounted` makes the two laws of it. -/

namespace Sys2Proof.Machine

-- One theorem after another, as in the model's tests.
set_option Elab.async false

/-! ## What an entry holds -/

/-- What the laws of the pool read of an entry: its held segments, and the segments of its line in assembly while it is
ASSEMBLING and has one. -/
def Route.account (x : Route) : Nat × Option (Option Nat) :=
  (x.heldSegments,
    match x.assembly with
    | .assembling _ line => some (line.map fun l => l.segments)
    | _ => none)

/-- R68 for one route: it holds the segments of its line in assembly and of its queued records. -/
def State.HoldsItsOwn (s : State) (r : Fin 64) : Prop :=
  (s.route r).heldSegments = (s.route r).lineSegments + s.queuedSegments r

section Entry
variable {x y : Route} {frame : OpenFrame} {line : Option LineInAssembly}

/-- The entry's share of every count that the laws sum up is in its account. -/
theorem counts_of_account (x : Route) :
    x.heldSegments = x.account.1 ∧ x.lineSegments = x.account.2.join.getD 0 ∧
    x.linesInAssembly = (if x.account.2.join.isSome then 1 else 0) ∧
    x.reservations = if x.account.2.isSome then 1 else 0 := by
  unfold Route.account Route.lineSegments Route.linesInAssembly Route.reservations
  rcases x.assembly with _ | ⟨_, _ | _⟩ | _ <;> exact ⟨rfl, rfl, rfl, rfl⟩

theorem account_congr (same : y.account = x.account) :
    y.heldSegments = x.heldSegments ∧ y.lineSegments = x.lineSegments ∧
    y.linesInAssembly = x.linesInAssembly ∧ y.reservations = x.reservations := by
  obtain ⟨held, segments, lines, reservations⟩ := counts_of_account x
  obtain ⟨held', segments', lines', reservations'⟩ := counts_of_account y
  rw [held, segments, lines, reservations, ← same]
  exact ⟨held', segments', lines', reservations'⟩

theorem account_assembling (assembly : x.assembly = .assembling frame line) :
    x.account = (x.heldSegments, some (line.map fun l => l.segments)) := by
  rw [Route.account, assembly]

/-- An entry with no open frame has neither a line in assembly nor a reservation. -/
theorem account_of_out (out : x.isAssembling = false) : x.account = (x.heldSegments, none) := by
  unfold Route.account
  split
  · next assembly => simp [Route.isAssembling, assembly] at out
  · rfl

theorem counts_of_out (out : x.isAssembling = false) :
    x.lineSegments = 0 ∧ x.linesInAssembly = 0 ∧ x.reservations = 0 := by
  simp only [Route.lineSegments, Route.linesInAssembly, Route.reservations]
  rcases assembly : x.assembly with _ | _ | _
  · exact ⟨rfl, rfl, rfl⟩
  · simp [Route.isAssembling, assembly] at out
  · exact ⟨rfl, rfl, rfl⟩

theorem counts_noLine (assembly : x.assembly = .assembling frame none) :
    x.lineSegments = 0 ∧ x.linesInAssembly = 0 ∧ x.reservations = 1 := by
  simp [Route.lineSegments, Route.linesInAssembly, Route.reservations, assembly]

theorem counts_line {l : LineInAssembly} (assembly : x.assembly = .assembling frame (some l)) :
    x.lineSegments = l.segments ∧ x.linesInAssembly = 1 ∧ x.reservations = 1 := by
  simp [Route.lineSegments, Route.linesInAssembly, Route.reservations, assembly]

theorem reservations_assembling (assembly : x.assembly = .assembling frame line) : x.reservations = 1 := by
  simp [Route.reservations, assembly]

end Entry

/-! ## The table and the queue -/

section Sums
variable {s t : State} {r : Fin 64}

/-- Changing one entry changes a sum over the table by the difference at that entry. -/
theorem OnlyRoute.sumRoutes (only : OnlyRoute s t r) (f : Route → Nat) :
    t.sumRoutes f + f (s.route r) = s.sumRoutes f + f (t.route r) := by
  have routes : t.routes = (s.setRoute r (t.route r)).routes := by
    refine Vector.ext fun i h => ?_
    have entry := s.route_setRoute r ⟨i, h⟩ (t.route r)
    split at entry
    · next e => subst e; exact entry.symm
    · next e => exact (only ⟨i, h⟩ e).trans entry.symm
  rw [State.sumRoutes_congr routes]
  exact s.sumRoutes_setRoute r (t.route r) f

theorem queuedSegments_congr (queue : t.queue = s.queue) (k : Fin 64) : t.queuedSegments k = s.queuedSegments k := by
  rw [State.queuedSegments, queue]; rfl

/-- A record at the tail counts for the route it names. -/
theorem queuedSegments_append {record : StreamRecord} (queue : t.queue = s.queue ++ [record]) (k : Fin 64) :
    t.queuedSegments k = s.queuedSegments k + if record.route = k then record.segments else 0 := by
  rw [State.queuedSegments, queue, List.filter_append, List.map_append, List.sum_append]
  by_cases mine : record.route = k <;> simp [State.queuedSegments, mine]

/-- A record at the head counts for the route it names. -/
theorem queuedSegments_cons {record : StreamRecord} (queue : s.queue = record :: t.queue) (k : Fin 64) :
    s.queuedSegments k = t.queuedSegments k + if record.route = k then record.segments else 0 := by
  rw [State.queuedSegments, queue, List.filter_cons]
  by_cases mine : record.route = k <;> simp [State.queuedSegments, mine, Nat.add_comm]

end Sums

/-! ## Operations on one route -/

/-- What conservation needs of an operation on route `r`. -/
structure Accounted (r : Fin 64) (s t : State) : Prop where
  only : OnlyRoute s t r
  elsewhere : ∀ k, k ≠ r → t.queuedSegments k = s.queuedSegments k
  segments : s.HoldsItsOwn r → t.HoldsItsOwn r ∧
    t.pool.freeSegments + (t.route r).heldSegments = s.pool.freeSegments + (s.route r).heldSegments
  descriptors :
    t.pool.freeDescriptors + (t.route r).linesInAssembly + t.queue.length + (t.route r).reservations =
      s.pool.freeDescriptors + (s.route r).linesInAssembly + s.queue.length + (s.route r).reservations

section Accounted
variable {s t u : State} {r : Fin 64}

theorem Accounted.trans (h : Accounted r s t) (k : Accounted r t u) : Accounted r s u where
  only := h.only.trans k.only
  elsewhere j hj := (k.elsewhere j hj).trans (h.elsewhere j hj)
  segments own := by
    obtain ⟨own, sum⟩ := h.segments own
    obtain ⟨own, sum'⟩ := k.segments own
    exact ⟨own, sum'.trans sum⟩
  descriptors := k.descriptors.trans h.descriptors

/-- Nothing is queued, the free counts stay, and the route's account does. -/
theorem Accounted.of_same (only : OnlyRoute s t r) (pool : t.pool = s.pool) (queue : t.queue = s.queue)
    (account : (t.route r).account = (s.route r).account) : Accounted r s t := by
  obtain ⟨held, segments, lines, reservations⟩ := account_congr account
  refine ⟨only, fun k _ => queuedSegments_congr queue k, fun own => ⟨?_, by rw [pool, held]⟩, ?_⟩
  · rw [State.HoldsItsOwn, held, segments, queuedSegments_congr queue]; exact own
  · rw [pool, lines, queue, reservations]

/-- An operation that leaves the table, the pool and the queue. -/
theorem Accounted.of_frame {changed : List Piece} (h : SameBut s t changed)
    (routes : Piece.routes ∉ changed := by decide) (pool : Piece.pool ∉ changed := by decide)
    (queue : Piece.queue ∉ changed := by decide) : Accounted r s t :=
  .of_same (fun k _ => h.route k routes) (h.pool pool) (h.queue queue) (by rw [h.route r routes])

theorem Accounted.refl (r : Fin 64) (s : State) : Accounted r s s := .of_frame (.refl s [])

/-- One record of the route is queued: its segments come from the line in assembly, its descriptor from that line or
from a reservation. -/
theorem Accounted.of_record {record : StreamRecord} (only : OnlyRoute s t r)
    (queue : t.queue = s.queue ++ [record]) (mine : record.route = r)
    (free : (s.route r).lineSegments ≤ (s.route r).heldSegments →
      t.pool.freeSegments + (t.route r).heldSegments = s.pool.freeSegments + (s.route r).heldSegments ∧
      (t.route r).heldSegments + (s.route r).lineSegments =
        (s.route r).heldSegments + (t.route r).lineSegments + record.segments)
    (descriptors : t.pool.freeDescriptors + (t.route r).linesInAssembly + (t.route r).reservations + 1 =
      s.pool.freeDescriptors + (s.route r).linesInAssembly + (s.route r).reservations) : Accounted r s t := by
  have queued := queuedSegments_append queue
  refine ⟨only, fun k hk => ?_, fun own => ?_, ?_⟩
  · rw [queued, if_neg (mine ▸ Ne.symm hk), Nat.add_zero]
  · unfold State.HoldsItsOwn at own ⊢
    obtain ⟨sum, held⟩ := free (own ▸ Nat.le_add_right _ _)
    rw [queued, if_pos mine]
    omega
  · rw [queue, List.length_append, List.length_singleton]
    omega

theorem Accounted.modifyRoute (f : Route → Route) (account : (f (s.route r)).account = (s.route r).account) :
    Accounted r s (s.modifyRoute r f) :=
  .of_same (modifyRoute_onlyRoute s r f) rfl rfl (by rw [State.route_modifyRoute_self]; exact account)

theorem Accounted.countRoute (f : RouteCounters → RouteCounters) : Accounted r s (s.countRoute r f) :=
  .modifyRoute _ rfl

theorem Accounted.stopIdleTimer (s : State) (r : Fin 64) : Accounted r s (s.stopIdleTimer r) := .modifyRoute _ rfl

theorem Accounted.startIdleTimer (s : State) (r : Fin 64) : Accounted r s (s.startIdleTimer r) := by
  unfold State.startIdleTimer
  split
  · exact .refl r s
  · exact .modifyRoute _ rfl

/-- A route that is not ASSEMBLING moves to another state that is not. -/
theorem Accounted.leave {f : Route → Route} (out : (s.route r).isAssembling = false)
    (out' : (f (s.route r)).isAssembling = false)
    (held : (f (s.route r)).heldSegments = (s.route r).heldSegments) : Accounted r s (s.modifyRoute r f) :=
  .modifyRoute f (by rw [account_of_out out', account_of_out out, held])

/-- The open frame changes, or the payload of its line in assembly. -/
theorem Accounted.setFrame {frame frame' : OpenFrame} {line line' : Option LineInAssembly}
    (assembly : (s.route r).assembly = .assembling frame line)
    (same : (line'.map fun l => l.segments) = line.map fun l => l.segments) :
    Accounted r s (s.setAssembly r (.assembling frame' line')) := by
  refine .modifyRoute _ ?_
  rw [account_assembling assembly, account_assembling (frame := frame') (line := line') rfl, same]

/-! ### Gates and hold points -/

theorem Accounted.shutGate (reason : ShutReason) (frame : Option Nat) :
    Accounted r s (s.shutGate r reason frame) := by
  have moved (info : NoticeInfo) :
      Accounted r s ((s.modifyRoute r fun x => { x with gate := .shut }).raise info) :=
    (Accounted.modifyRoute _ rfl).trans (.of_frame (raise_frame _ _))
  unfold State.shutGate
  split
  all_goals first
    | exact moved _
    | exact .refl r s

theorem Accounted.frameEndStep (frame : Nat) : Accounted r s (s.frameEndStep r frame) := by
  unfold State.frameEndStep
  split
  · exact .shutGate _ _
  · exact .shutGate _ _
  · exact .refl r s

theorem Accounted.forceGate : Accounted r s (s.forceGate r) := by
  rw [forceGate_eq]
  exact .modifyRoute _ rfl

theorem Accounted.fireHoldPoint (frame : Nat) (h : HoldPoint) : Accounted r s (s.fireHoldPoint r frame h) :=
  (Accounted.modifyRoute _ rfl).trans (.of_frame (raise_frame _ _))

theorem Accounted.fire (frame : Nat) (fired : Option HoldPoint) : Accounted r s (s.fire r frame fired) := by
  cases fired with
  | none => exact .refl r s
  | some h => exact .fireHoldPoint frame h

/-! ### The end of an ingress frame -/

/-- An abort frees the line in assembly and turns the reservation into the abort mark (R62, R81). -/
theorem Accounted.of_ended {reason : AbortReason} (h : FrameEnded s t r reason) : Accounted r s t := by
  obtain ⟨-, only, entry, queue, pool, -⟩ := h
  have out := ended_out (s.route r) reason
  rcases assembly : (s.route r).assembly with _ | ⟨frame, line⟩ | _
  case assembling =>
    obtain ⟨segments, lines, reservations⟩ := counts_of_out out
    have held : ((s.route r).ended reason).heldSegments = (s.route r).heldSegments - (s.route r).lineSegments := by
      rw [Route.ended, assembly]
    have aborted : (s.route r).endRecords r reason = [abortRecord r (s.route r) frame reason] := by
      rw [Route.endRecords, assembly]
    have reserved := reservations_assembling assembly
    rw [aborted] at queue
    refine .of_record only queue rfl (fun own => ?_) ?_
    · rw [entry, pool, held, segments]
      simp only [Pool.freed, abortRecord]
      omega
    · rw [entry, pool, lines, reservations, reserved]
      simp only [Pool.freed]
  all_goals
    obtain ⟨segments, lines, -⟩ := counts_of_out (x := s.route r) (by simp [Route.isAssembling, assembly])
    refine .of_same only (by rw [pool, segments, lines]; rfl)
      (by rw [queue, Route.endRecords, assembly]; exact List.append_nil _) ?_
    rw [entry]
    simp [Route.ended, Route.account, assembly]

theorem Accounted.abort (reason : AbortReason) : Accounted r s (s.abort r reason) := by
  rcases assembly : (s.route r).assembly with _ | ⟨frame, line⟩ | _
  · simpa [State.abort, assembly] using Accounted.refl r s
  · exact .of_ended (abort_spec s r reason frame line assembly)
  · simpa [State.abort, assembly] using Accounted.refl r s

/-- The line in assembly gives back its segments and its descriptor (R81). -/
theorem Accounted.freeLine : Accounted r s (s.freeLine r) := by
  have queue := (freeLine_frame s r).queue
  have entry := s.route_freeLine r r
  rw [if_pos rfl] at entry
  have freed : ((s.freeLine r).route r).lineSegments = 0 ∧ ((s.freeLine r).route r).linesInAssembly = 0 ∧
      ((s.freeLine r).route r).reservations = (s.route r).reservations := by
    rw [entry]
    simp only [Route.lineSegments, Route.linesInAssembly, Route.reservations]
    rcases (s.route r).assembly with _ | _ | _ <;> exact ⟨rfl, rfl, rfl⟩
  obtain ⟨segments, lines, reservations⟩ := freed
  have held : ((s.freeLine r).route r).heldSegments = (s.route r).heldSegments - (s.route r).lineSegments := by
    rw [entry]
  refine ⟨freeLine_onlyRoute s r, fun k _ => queuedSegments_congr queue k, fun own => ?_, ?_⟩
  · unfold State.HoldsItsOwn at own ⊢
    rw [queuedSegments_congr queue, State.freeLine_pool, segments, held]
    simp only [Pool.freed]
    omega
  · rw [State.freeLine_pool, lines, reservations, queue]
    simp only [Pool.freed, Nat.add_zero]

/-! ### Headers -/

/-- A packet becomes the line in assembly: its segments and its descriptor come from the pool (R53, R78). -/
theorem Accounted.takeLine {frame : OpenFrame} {line : LineInAssembly}
    (assembly : (s.route r).assembly = .assembling frame none) (segments : line.segments ≤ s.pool.freeSegments)
    (descriptors : 1 ≤ s.pool.freeDescriptors) :
    Accounted r s (((s.setAssembly r (.assembling frame (some line))).takeSegments r line.segments).takeDescriptors
      1) := by
  obtain ⟨none, noLine, reserved⟩ := counts_noLine assembly
  generalize taken : ((s.setAssembly r _).takeSegments r line.segments).takeDescriptors 1 = v
  have entry : v.route r =
      { s.route r with
        heldSegments := (s.route r).heldSegments + line.segments
        assembly := .assembling frame (some line) } := by
    subst taken; simp
  obtain ⟨segments', lines', reserved'⟩ := counts_line (x := v.route r) (by rw [entry])
  have pool : v.pool.freeSegments = s.pool.freeSegments - line.segments ∧
      v.pool.freeDescriptors = s.pool.freeDescriptors - 1 := by
    subst taken; exact ⟨rfl, rfl⟩
  have queue : v.queue = s.queue := by subst taken; rfl
  have held : (v.route r).heldSegments = (s.route r).heldSegments + line.segments := by rw [entry]
  refine ⟨?_, fun k _ => queuedSegments_congr queue k, fun own => ?_, by rw [queue]; omega⟩
  · subst taken
    exact ((setAssembly_onlyRoute s r _).trans fun k hk => State.route_takeSegments_ne _ _ hk).trans
      ((takeDescriptors_frame _ 1).onlyRoute r)
  · unfold State.HoldsItsOwn at own ⊢
    rw [queuedSegments_congr queue]
    omega

/-- A packet whose resources are there becomes the line in assembly, any other aborts its frame (R53, R78, R79). -/
theorem Accounted.allocate {frame : OpenFrame} {line : Option LineInAssembly} (p : Fin 4) (header : PacketHeader)
    (assembly : (s.route r).assembly = .assembling frame line) : Accounted r s (s.allocate p r header) := by
  unfold State.allocate
  dsimp only
  split
  · next resources =>
    obtain ⟨segments, -, descriptors⟩ := canAllocate_iff.1 resources
    have freed : ((s.freeLine r).route r).assembly = .assembling frame none := by
      rw [State.route_freeLine, if_pos rfl, assembly]
    refine Accounted.trans ?_ (.of_frame (testLong_frame _ p r header))
    simp only [State.setLine, freed]
    refine Accounted.freeLine.trans (.takeLine freed ?_ ?_) <;> rw [State.freeLine_pool]
    · exact segments.trans (Nat.le_add_right _ _)
    · exact descriptors.trans (Nat.le_add_right _ _)
  · exact (Accounted.abort _).trans (.countRoute _)

theorem Accounted.filterPacket {frame : OpenFrame} {line : Option LineInAssembly} (p : Fin 4) (header : PacketHeader)
    (assembly : (s.route r).assembly = .assembling frame line) : Accounted r s (s.filterPacket p r header) := by
  unfold State.filterPacket
  dsimp only
  split
  · exact .countRoute _
  · exact .allocate p header assembly

/-- The counts of lines are nothing the pool knows of (R51). -/
theorem Accounted.countLine {frame : OpenFrame} {line : Option LineInAssembly} (p : Fin 4) (header : PacketHeader)
    (assembly : (s.route r).assembly = .assembling frame line) : Accounted r s (s.countLine p r header frame) := by
  unfold State.countLine
  simp only [State.modifyFrame, assembly]
  split
  · split
    · exact (Accounted.setFrame (line' := line) assembly rfl).trans
        (.filterPacket p header (congrArg Route.assembly (State.route_setAssembly_self s r _)))
    · exact (Accounted.setFrame (line' := line) assembly rfl).trans (.countRoute _)
  · exact .filterPacket p header assembly

theorem Accounted.assembleHeader {frame : OpenFrame} {line : Option LineInAssembly} (p : Fin 4)
    (header : PacketHeader) (assembly : (s.route r).assembly = .assembling frame line) :
    Accounted r s (s.assembleHeader p r header frame) := by
  unfold State.assembleHeader
  split
  · next h _ =>
    refine (Accounted.fireHoldPoint frame.number h).trans ?_
    have fired := (route_fireHoldPoint_assembly s r frame.number h).trans assembly
    dsimp only
    split
    · exact (Accounted.abort _).trans (.countRoute _)
    · exact Accounted.forceGate.trans (.countLine p header ((route_forceGate_assembly _ r).trans fired))
  · exact .countLine p header assembly

theorem Accounted.routeHeader (p : Fin 4) (header : PacketHeader) : Accounted r s (s.routeHeader p r header) := by
  unfold State.routeHeader
  refine (Accounted.stopIdleTimer s r).trans ?_
  dsimp only
  split
  · exact .refl r _
  · split
    · next assembly => exact .assembleHeader p header assembly
    · exact .countRoute _
    · exact .countRoute _

/-- The payload of a line in assembly fills segments it has (R11). -/
theorem Accounted.writePayload (length : Nat) (bytes : List Byte) :
    Accounted r s (s.writePayload r length bytes) := by
  unfold State.writePayload
  split
  · next assembly => exact .setFrame assembly rfl
  · exact .refl r s

/-! ### Opening marks -/

/-- An admission takes two descriptors, one for the opening mark and one for the reservation (R47, R76). -/
theorem Accounted.admitFrame (mark : OpeningMark) (admits : s.canAdmit r = true)
    (out : (s.route r).isAssembling = false) : Accounted r s (s.admitFrame r mark) := by
  have only : OnlyRoute s (s.admitFrame r mark) r :=
    ((((takeDescriptors_frame s 2).onlyRoute r).trans ((enqueue_frame _ r _ _).onlyRoute r)).trans
      (setAssembly_onlyRoute _ r _)).trans (modifyRoute_onlyRoute _ r _)
  obtain ⟨-, -, two⟩ := canAdmit_iff.1 admits
  obtain ⟨pool, -, queue, entry⟩ := admitFrame_spec s r mark
  obtain ⟨none, noLine, unreserved⟩ := counts_of_out out
  obtain ⟨none', noLine', reserved⟩ := counts_noLine (x := (s.admitFrame r mark).route r) (by rw [entry])
  have held : ((s.admitFrame r mark).route r).heldSegments = (s.route r).heldSegments := by rw [entry]
  refine .of_record only queue rfl (fun _ => ?_) ?_
  · rw [pool, held, none, none']
    exact ⟨rfl, rfl⟩
  · rw [pool, noLine, noLine', reserved, unreserved]
    simp only [Pool.admitted]
    omega

theorem Accounted.refuseFrame (mark : OpeningMark) (out : (s.route r).isAssembling = false) :
    Accounted r s (s.refuseFrame r mark) := by
  unfold State.refuseFrame
  dsimp only
  split
  · exact .leave out rfl rfl
  · exact (Accounted.leave out rfl rfl).trans (.of_frame (raise_frame _ _))

theorem Accounted.holdOff (out : (s.route r).isAssembling = false) : Accounted r s (s.holdOff r) :=
  (Accounted.leave out rfl rfl).trans (.countRoute _)

theorem Accounted.tryFrame (mark : OpeningMark) (fired : Option HoldPoint) (out : (s.route r).isAssembling = false) :
    Accounted r s (s.tryFrame r mark fired) := by
  unfold State.tryFrame
  split
  · refine (Accounted.shutGate _ _).trans (.holdOff ?_)
    rwa [Route.isAssembling, route_shutGate_assembly, ← Route.isAssembling]
  · split
    · next admits => exact (Accounted.admitFrame mark admits out).trans .forceGate
    · exact .refuseFrame mark out
  · split
    · next admits => exact .admitFrame mark admits out
    · exact .refuseFrame mark out

theorem Accounted.meetGate (mark : OpeningMark) (fired : Option HoldPoint) (out : (s.route r).isAssembling = false) :
    Accounted r s (s.meetGate r mark fired) := by
  unfold State.meetGate
  split
  · exact .tryFrame mark fired out
  · exact .tryFrame mark fired out
  all_goals exact .holdOff out

/-- The truncation gives back what the open frame had before the mark's frame takes anything (R43, R47). -/
theorem Accounted.openingMark (mark : OpeningMark) : Accounted r s (s.openingMark r mark) := by
  unfold State.openingMark
  dsimp only
  have ended := endIngressFrame_spec (s.fire r mark.number ((s.route r).firedByMark mark.number)) r .truncated
  refine ((Accounted.fire _ _).trans (.of_ended ended)).trans (.meetGate mark _ ?_)
  obtain ⟨-, -, entry, -, -, -⟩ := ended
  rw [entry]
  exact ended_out _ _

/-! ### Lines and closing marks -/

/-- The line in assembly becomes a queued record with its segments and its descriptor (R58). -/
theorem Accounted.forward {frame frame' : OpenFrame} {line : LineInAssembly}
    (assembly : (s.route r).assembly = .assembling frame (some line)) (damaged long : Bool) :
    Accounted r s (s.forward r frame' line damaged long) := by
  obtain ⟨same, only, queue, entry⟩ := forward_spec (s := s) (r := r) (frame := frame')
    (line := line) (damaged := damaged) (long := long)
  obtain ⟨segments, lines, reserved⟩ := counts_line assembly
  obtain ⟨none, noLine, reserved'⟩ :=
    counts_noLine (x := (s.forward r frame' line damaged long).route r) (by rw [entry])
  have held : ((s.forward r frame' line damaged long).route r).heldSegments = (s.route r).heldSegments := by rw [entry]
  refine .of_record only queue rfl (fun _ => ?_) ?_
  · rw [same.pool, held, segments, none]
    exact ⟨rfl, rfl⟩
  · rw [same.pool, lines, noLine, reserved, reserved']

theorem Accounted.applyPolicy {frame : OpenFrame} {line : LineInAssembly}
    (assembly : (s.route r).assembly = .assembling frame (some line)) (long : Bool) :
    Accounted r s (s.applyPolicy r frame line long) := by
  unfold State.applyPolicy
  split
  · exact .abort _
  · exact (Accounted.forward assembly true long).trans (.countRoute _)

theorem Accounted.damagedLine {frame : OpenFrame} {line : LineInAssembly}
    (assembly : (s.route r).assembly = .assembling frame (some line)) (long : Bool) :
    Accounted r s (s.damagedLine r frame line long) := by
  unfold State.damagedLine
  split
  · next h _ =>
    refine (Accounted.fireHoldPoint frame.number h).trans ?_
    have fired := (route_fireHoldPoint_assembly s r frame.number h).trans assembly
    dsimp only
    split
    · exact .abort _
    · exact Accounted.forceGate.trans (.applyPolicy ((route_forceGate_assembly _ r).trans fired) long)
  · exact .applyPolicy assembly long

theorem Accounted.packetEnd (damaged long : Bool) : Accounted r s (s.packetEnd r damaged long) := by
  unfold State.packetEnd
  split
  · next assembly =>
    split
    · exact .damagedLine assembly long
    · exact .forward assembly false false
  · exact .refl r s

/-- The closing mark's record takes the descriptor of the reservation (R60, R74). -/
theorem Accounted.closeFrame {frame : OpenFrame} {line : Option LineInAssembly}
    (assembly : (s.route r).assembly = .assembling frame line) (number : Nat) :
    Accounted r s (s.closeFrame r frame number) := by
  unfold State.closeFrame
  dsimp only
  have freed : ((s.freeLine r).route r).assembly = .assembling frame none := by
    rw [State.route_freeLine, if_pos rfl, assembly]
  refine (Accounted.freeLine.trans ?_).trans (.frameEndStep frame.number)
  generalize s.freeLine r = v at freed
  obtain ⟨none, noLine, reserved⟩ := counts_noLine freed
  refine .of_record (((((enqueue_frame v r _ _).onlyRoute r).trans (countRoute_onlyRoute _ r _)).trans
    (setAssembly_onlyRoute _ r _)).trans (stopIdleTimer_onlyRoute _ r)) rfl rfl (fun _ => ?_) ?_
  · rw [none]
    simp [Route.lineSegments]
  · rw [noLine, reserved]
    simp [Route.linesInAssembly, Route.reservations]

theorem Accounted.closingMark (number : Nat) : Accounted r s (s.closingMark r number) := by
  unfold State.closingMark
  split
  · next assembly => exact .closeFrame assembly number
  · next skipping =>
    have out : (s.route r).isAssembling = false := by simp [Route.isAssembling, skipping]
    exact ((Accounted.leave out rfl rfl).trans (.stopIdleTimer _ r)).trans (.countRoute _)
  · exact .countRoute _

theorem Accounted.endAtRoute (p : Fin 4) (x : Reception) (header : PacketHeader) :
    Accounted (routeOf p header.channel) s (s.endAtRoute p x header) := by
  unfold State.endAtRoute
  dsimp only
  refine Accounted.trans ?_ (.startIdleTimer _ _)
  split
  · split
    · exact .openingMark _
    · exact .of_frame (badMark_frame s p)
  · split
    · split
      · exact .closingMark _
      · exact .of_frame (badMark_frame s p)
    · split
      · exact .packetEnd _ _
      · exact (Accounted.of_frame (countPort_frame s p _)).trans (.packetEnd _ _)

/-! ### The head of the queue -/

/-- Everything that sending the head record does (R80, R114). -/
theorem recordSent_spec {record : StreamRecord} {rest : List StreamRecord} (queue : s.queue = record :: rest) :
    let u := s.recordSent
    SameBut s u [.queue, .pool, .routes, .trunkCounters] ∧ OnlyRoute s u record.route ∧ u.queue = rest ∧
    u.pool = s.pool.freed record.segments 1 ∧
    u.route record.route =
      { s.route record.route with heldSegments := (s.route record.route).heldSegments - record.segments } ∧
    u.trunkCounters = { s.trunkCounters with recordsSent := bump s.trunkCounters.recordsSent } := by
  have sent : s.recordSent = (({ s with queue := rest }.returnDescriptor).returnSegments record.route
      record.segments).countTrunk fun c => { c with recordsSent := bump c.recordsSent } := by
    simp only [State.recordSent, queue]
  rw [sent]
  refine ⟨fun piece other => ?_, fun k hk => State.route_returnSegments_ne _ _ hk, rfl, rfl,
    State.route_returnSegments_self _ _ _, rfl⟩
  cases piece <;> first | rfl | exact absurd (by decide) other

/-- What the head record held goes back to the pool (R80, R114). -/
theorem Accounted.recordSent {record : StreamRecord} {rest : List StreamRecord} (queue : s.queue = record :: rest) :
    Accounted record.route s s.recordSent := by
  obtain ⟨-, only, left, pool, entry, -⟩ := recordSent_spec queue
  have queued := queuedSegments_cons (left.symm ▸ queue)
  have counts : (s.recordSent.route record.route).lineSegments = (s.route record.route).lineSegments ∧
      (s.recordSent.route record.route).linesInAssembly = (s.route record.route).linesInAssembly ∧
      (s.recordSent.route record.route).reservations = (s.route record.route).reservations := by
    rw [entry]; exact ⟨rfl, rfl, rfl⟩
  obtain ⟨segments, lines, reservations⟩ := counts
  have held : (s.recordSent.route record.route).heldSegments =
      (s.route record.route).heldSegments - record.segments := by rw [entry]
  refine ⟨only, fun k hk => ?_, fun own => ?_, ?_⟩
  · rw [queued, if_neg (Ne.symm hk), Nat.add_zero]
  · unfold State.HoldsItsOwn at own ⊢
    rw [queued, if_pos rfl] at own
    rw [pool, held, segments]
    simp only [Pool.freed]
    omega
  · rw [pool, lines, reservations, left, queue, List.length_cons]
    simp only [Pool.freed]
    omega

end Accounted

/-! ## The part -/

/-- What every event does: each of the two laws is kept (R68, R73). -/
structure PoolKept (s t : State) : Prop where
  segments : s.SegmentsConserved → t.SegmentsConserved
  descriptors : s.DescriptorsConserved → t.DescriptorsConserved

section Part
variable {s t u : State} {r : Fin 64}

theorem PoolKept.trans (h : PoolKept s t) (k : PoolKept t u) : PoolKept s u :=
  ⟨k.segments ∘ h.segments, k.descriptors ∘ h.descriptors⟩

/-- The laws read the free counts of the pool, the table and the queue alone. -/
theorem PoolKept.of_same (segments : t.pool.freeSegments = s.pool.freeSegments)
    (descriptors : t.pool.freeDescriptors = s.pool.freeDescriptors) (routes : t.routes = s.routes)
    (queue : t.queue = s.queue) : PoolKept s t where
  segments law := by
    obtain ⟨sum, own⟩ := law
    refine ⟨by rw [segments, State.sumRoutes_congr routes, sum], fun r => ?_⟩
    rw [State.route_congr routes, queuedSegments_congr queue, own r]
  descriptors law := by
    rw [State.DescriptorsConserved, descriptors, State.sumRoutes_congr routes, State.sumRoutes_congr routes, queue]
    exact law

theorem PoolKept.refl (s : State) : PoolKept s s := ⟨id, id⟩

theorem PoolKept.of_frame {changed : List Piece} (h : SameBut s t changed)
    (routes : Piece.routes ∉ changed := by decide) (pool : Piece.pool ∉ changed := by decide)
    (queue : Piece.queue ∉ changed := by decide) : PoolKept s t :=
  .of_same (by rw [h.pool pool]) (by rw [h.pool pool]) (h.routes routes) (h.queue queue)

/-- What one route and the queue take or give is what the pool gives or takes, so the sums stay. -/
theorem PoolKept.of_accounted (h : Accounted r s t) : PoolKept s t where
  segments law := by
    obtain ⟨total, own⟩ := law
    obtain ⟨ownAfter, moved⟩ := h.segments (own r)
    have sum := h.only.sumRoutes fun x => x.heldSegments
    refine ⟨by omega, fun k => ?_⟩
    by_cases hk : k = r
    · subst hk; exact ownAfter
    · rw [h.only k hk, h.elsewhere k hk]; exact own k
  descriptors law := by
    unfold State.DescriptorsConserved at law ⊢
    have lines := h.only.sumRoutes Route.linesInAssembly
    have reservations := h.only.sumRoutes Route.reservations
    have moved := h.descriptors
    omega

theorem PoolKept.modifyRoute (s : State) (r : Fin 64) (f : Route → Route)
    (account : (f (s.route r)).account = (s.route r).account) : PoolKept s (s.modifyRoute r f) :=
  .of_accounted (.modifyRoute f account)

theorem PoolKept.countSource (s : State) (src : Source) (f : SourceCounters → SourceCounters) :
    PoolKept s (s.countSource src f) := by
  cases src <;> exact .of_frame (countSource_frame s _ f)

theorem PoolKept.finish (s : State) : PoolKept s s.finish := .of_frame (finish_frame s)

end Part

end Sys2Proof.Machine
end

section
/-! The statement about the conservation of segments and descriptors (R68, R73): the events on routes, the commands,
then all rows. -/

namespace Sys2Proof.Machine

-- One theorem after another, as in the model's tests.
set_option Elab.async false

/-! ## Events on a route -/

section Routes
variable {s : State}

theorem PoolKept.endIngressFrame (s : State) (r : Fin 64) (reason : AbortReason) :
    PoolKept s (s.endIngressFrame r reason) := .of_accounted (.of_ended (endIngressFrame_spec s r reason))

theorem PoolKept.visitRoutes (s : State) (p : Fin 4) (reason : AbortReason) :
    PoolKept s (s.visitRoutes p reason) := by
  unfold State.visitRoutes
  generalize List.finRange 16 = channels
  induction channels generalizing s with
  | nil => exact .refl s
  | cons channel rest ih => exact (PoolKept.endIngressFrame s _ reason).trans (ih _)

theorem PoolKept.modifyPort (s : State) (p : Fin 4) (f : Port → Port) : PoolKept s (s.modifyPort p f) :=
  .of_frame (modifyPort_frame s p f)

theorem PoolKept.alignmentLost (s : State) (p : Fin 4) : PoolKept s (s.alignmentLost p) := by
  unfold State.alignmentLost
  split
  · have down : PoolKept s (s.portDown p) := .of_frame (portDown_frame s p)
    exact (down.trans (.visitRoutes _ p .portLost)).trans (.of_frame (raise_frame _ _))
  · exact .modifyPort s p _

theorem PoolKept.setPortMode (s : State) (p : Fin 4) (enable : Bool) (lanes : Lanes) :
    PoolKept s (s.setPortMode p enable lanes) := by
  by_cases off : (s.port p).state = .off
  · obtain ⟨frame, -, -⟩ := setPortMode_off (enable := enable) (lanes := lanes) off
    exact .of_frame frame
  · cases enable
    · rw [setPortMode_disable off]
      have quiet : PoolKept s (s.portQuiet p) :=
        .of_frame ((cutReception_frame s p).trans (modifyPort_frame _ p _))
      exact (quiet.trans (.visitRoutes _ p .portOff)).trans (.modifyPort _ p _)
    · rw [setPortMode_enabled off]
      exact .refl s

theorem PoolKept.headerArrives (s : State) (p : Fin 4) (header : Header) : PoolKept s (s.headerArrives p header) := by
  by_cases passes : headerPasses header = true
  · have begun (d : Disposition) : PoolKept s (s.begun p (headerFields header) d) := .of_frame (begun_frame s p _ d)
    rw [headerArrives_eq passes]
    dsimp only
    split
    · exact (begun _).trans (.of_frame (countPort_frame _ p _))
    · split
      · exact (begun _).trans (.of_frame (countPort_frame _ p _))
      · exact (begun _).trans (.of_accounted (.routeHeader p _))
  · rw [State.headerArrives, if_neg passes]
    exact .of_frame ((receive_frame s p _ _).trans (countPort_frame _ p _))

theorem PoolKept.bytesArrive (s : State) (p : Fin 4) (bytes : List Byte) : PoolKept s (s.bytesArrive p bytes) := by
  rcases held : (s.port p).reception with _ | x
  · rw [State.bytesArrive, held]
    exact .refl s
  · rw [bytesArrive_eq held]
    refine PoolKept.trans ?_ (.modifyPort _ p _)
    unfold State.bytesAtRoute
    split
    · exact .of_accounted (.writePayload _ _)
    · exact .refl s

theorem PoolKept.packetEnds (s : State) (p : Fin 4) : PoolKept s (s.packetEnds p) := by
  unfold State.packetEnds
  split
  · next x _ =>
    refine (PoolKept.modifyPort s p fun y => { y with reception := none }).trans ?_
    dsimp only
    split
    · next header _ _ => exact .of_accounted (.endAtRoute p x header)
    · split
      · exact .of_frame (countPort_frame _ p _)
      · exact .refl _
    · exact .refl _
  · exact .refl s

theorem PoolKept.disableRoute (s : State) (r : Fin 64) : PoolKept s (s.disableRoute r) := by
  have ended : Accounted r s (s.endIngressFrame r .disabled) := .of_ended (endIngressFrame_spec s r .disabled)
  refine PoolKept.trans (.of_accounted ((ended.trans (.stopIdleTimer _ r)).trans ?_)) (.modifyPort _ _ _)
  exact .modifyRoute _ rfl

end Routes

/-! ## Commands -/

/-- A command keeps the two laws. -/
def KeepsPool (run : Source → List Byte → State → Execution) : Prop :=
  ∀ src args s, PoolKept s (run src args s).state

theorem beside_keeps_pool {run : Source → List Byte → State → Execution} (h : run ∈ commandsBesideTheTable) :
    KeepsPool run := by
  intro src args s
  simp only [commandsBesideTheTable, List.mem_cons, List.not_mem_nil, or_false] at h
  rcases h with rfl | rfl | rfl | rfl | rfl | rfl | rfl | rfl | rfl | rfl | rfl | rfl | rfl | rfl | rfl | rfl | rfl
  all_goals
    simp only [unknownCommand, identify, claim, drop, leaseTime, resetPart, portStatus, routeRead, tableScan,
      poolStatus, trunkStatus, trunkStart, trunkRetrain, noticeAck, noticeReplay, noticeMask, noticeRoute]
    repeat' split
    all_goals exact .of_same rfl rfl rfl rfl

theorem trunkHalt_keeps_pool : KeepsPool trunkHalt := fun src args s => by
  unfold trunkHalt State.haltLink
  dsimp only
  repeat' split
  all_goals exact .of_same rfl rfl rfl rfl

theorem PoolKept.clearSet (s : State) (set : CounterScope) : PoolKept s (s.clearSet set) := by
  unfold State.clearSet
  split
  · exact .of_accounted (.countRoute _)
  · exact .modifyPort s _ _
  · exact .of_frame (countTrunk_frame s _)
  · exact .countSource s _ _

theorem countersRead_keeps_pool : KeepsPool countersRead := fun src args s => by
  unfold countersRead
  repeat' split
  all_goals first
    | exact .refl s
    | exact .clearSet s _

theorem gateCommand_keeps_pool {move : State → Fin 64 → Option State}
    (h : ∀ s r t, move s r = some t → PoolKept s t) : KeepsPool (gateCommand move) := fun src args s => by
  unfold gateCommand
  dsimp only
  repeat' split
  all_goals first
    | exact .refl s
    | exact h s _ _ ‹_›

section Gates
variable {s t : State} {r : Fin 64}

theorem PoolKept.setGate (s : State) (r : Fin 64) (gate : Gate) :
    PoolKept s (s.modifyRoute r fun x => { x with gate }) := .modifyRoute s r _ rfl

theorem holdGate_pool (h : holdGate s r = some t) : PoolKept s t := by
  unfold holdGate at h
  repeat' split at h
  all_goals first
    | exact Option.some.inj h ▸ .refl s
    | exact Option.some.inj h ▸ .setGate s r _
    | exact Option.some.inj h ▸ .of_accounted (.shutGate _ _)
    | cases h

theorem releaseGate_pool (h : releaseGate s r = some t) : PoolKept s t := by
  unfold releaseGate at h
  split at h
  · cases h
  · exact Option.some.inj h ▸ .setGate s r _

theorem stepGate_pool (h : stepGate s r = some t) : PoolKept s t := by
  unfold stepGate at h
  split at h
  · exact Option.some.inj h ▸ .setGate s r _
  · cases h

end Gates

theorem PoolKept.setHoldPoint (s : State) (r : Fin 64) (holdPoint : Option HoldPoint) :
    PoolKept s (s.modifyRoute r fun x => { x with holdPoint }) := .modifyRoute s r _ rfl

theorem PoolKept.setConfig (s : State) (r : Fin 64) (config : RouteConfig) :
    PoolKept s (s.modifyRoute r fun x => { x with config }) := .modifyRoute s r _ rfl

theorem holdpointSet_keeps_pool : KeepsPool holdpointSet := fun src args s => by
  unfold holdpointSet
  dsimp only
  repeat' split
  all_goals first
    | exact .refl s
    | exact .setHoldPoint s _ _

theorem holdpointClear_keeps_pool : KeepsPool holdpointClear := fun src args s => by
  unfold holdpointClear
  repeat' split
  all_goals first
    | exact .refl s
    | exact .setHoldPoint s _ _

theorem routeEnable_keeps_pool : KeepsPool routeEnable := fun src args s => by
  unfold routeEnable
  dsimp only
  repeat' split
  all_goals first
    | exact .refl s
    | exact .setGate s _ _

theorem routeWrite_keeps_pool : KeepsPool routeWrite := fun src args s => by
  unfold routeWrite writeRoute
  dsimp only
  repeat' split
  all_goals first
    | exact .refl s
    | exact .setConfig s _ _

theorem routeDisable_keeps_pool : KeepsPool routeDisable := fun src args s => by
  unfold routeDisable
  dsimp only
  repeat' split
  all_goals first
    | exact .refl s
    | exact .disableRoute s _

theorem portSet_keeps_pool : KeepsPool portSet := fun src args s => by
  unfold portSet
  dsimp only
  repeat' split
  all_goals first
    | exact .refl s
    | exact .setPortMode s _ _ _

/-! ## The control port, the trunk and part resets -/

section Part
variable {s t effect : State} {possible : Bool} {run : Source → List Byte → State → Execution}

theorem PoolKept.judgeRecord (s : State) (src : Source) (covered check : List Byte) :
    PoolKept s (s.judgeRecord src covered check) := by
  cases src <;> exact .of_frame (judgeRecord_frame s _ covered check)

theorem PoolKept.character (s : State) (character : Byte) (stopBit : Bool) :
    PoolKept s (s.character character stopBit) := by
  have complete (record : List Byte) (length : Nat) : PoolKept s (s.completeRecord record length) := by
    refine PoolKept.trans (t := s.endReception) (.of_same rfl rfl rfl rfl) ?_
    exact .judgeRecord _ _ _ _
  unfold State.character State.idleCharacter State.recordCharacter
  dsimp only
  repeat' split
  all_goals first
    | exact .of_same rfl rfl rfl rfl
    | exact complete _ _

theorem PoolKept.expireLease (s : State) : PoolKept s s.expireLease := by
  unfold State.expireLease
  split
  · next src _ => cases src <;> exact .of_same rfl rfl rfl rfl
  · exact .of_same rfl rfl rfl rfl

theorem PoolKept.takeGrant (s : State) (rest : List Byte) : PoolKept s (s.takeGrant rest) := by
  unfold State.takeGrant
  repeat' split
  all_goals exact .of_same rfl rfl rfl rfl

theorem PoolKept.takeRemote (s : State) (rest : List Byte) : PoolKept s (s.takeRemote rest) := by
  unfold State.takeRemote
  dsimp only
  repeat' split
  · exact .judgeRecord s _ _ _
  · exact .countSource s _ _
  · exact .countSource s _ _

theorem PoolKept.acknowledge (s : State) (rest : List Byte) : PoolKept s (s.acknowledge rest) := by
  unfold State.acknowledge
  repeat' split
  all_goals exact .of_same rfl rfl rfl rfl

/-- A part reset frees every segment and every descriptor (R18, R85, R164). -/
theorem PoolKept.partReset (s : State) (cause : ResetCause) (epoch : Nat) (straps : Straps) :
    PoolKept s (s.partReset cause epoch straps) := by
  have zero {f : Route → Nat} (h : ∀ r, f (Route.reset r) = 0) : (s.partReset cause epoch straps).sumRoutes f = 0 := by
    simp only [State.sumRoutes, routes_toList, List.map_map]
    exact List.sum_eq_zero fun n member => by
      obtain ⟨r, -, rfl⟩ := List.mem_map.1 member
      simp only [Function.comp, route_partReset, h]
  refine ⟨fun _ => ⟨?_, fun r => ?_⟩, fun _ => ?_⟩
  · rw [zero fun _ => rfl]; rfl
  · rw [route_partReset]; rfl
  · rw [State.DescriptorsConserved, zero fun _ => rfl, zero fun _ => rfl]; rfl

theorem PoolKept.resetAfterReply (s : State) (src : Source) (straps : Straps) :
    PoolKept s (s.resetAfterReply src straps) := by
  unfold State.resetAfterReply
  repeat' split
  · exact .partReset s _ _ _
  · exact .refl s
  · exact .refl s

theorem PoolKept.completePort (s : State) (straps : Straps) : PoolKept s (s.completePort straps) := by
  unfold State.completePort
  dsimp only
  split
  · exact .refl s
  · refine PoolKept.trans ?_ (.resetAfterReply _ _ straps)
    exact .of_same rfl rfl rfl rfl
  · exact .of_same rfl rfl rfl rfl

theorem PoolKept.recordSent (s : State) : PoolKept s s.recordSent := by
  rcases queue : s.queue with _ | ⟨record, rest⟩
  · rw [State.recordSent, queue]
    exact .refl s
  · exact .of_accounted (.recordSent queue)

theorem PoolKept.completeTrunk (s : State) (straps : Straps) : PoolKept s (s.completeTrunk straps) := by
  unfold State.completeTrunk
  dsimp only
  split
  · exact .refl s
  · refine PoolKept.trans ?_ (.recordSent _)
    exact .of_same rfl rfl rfl rfl
  · refine PoolKept.trans ?_ (.resetAfterReply _ _ straps)
    exact .of_same rfl rfl rfl rfl
  · exact .of_same rfl rfl rfl rfl

theorem PoolKept.expireGrace (s : State) (straps : Straps) : PoolKept s (s.expireGrace straps) := by
  unfold State.expireGrace
  split
  · exact .partReset s _ _ _
  · exact .refl s

theorem PoolKept.holdInReset (s : State) (line : ResetLine) : PoolKept s (s.holdInReset line) :=
  .of_same rfl rfl rfl rfl

/-! ## Rows -/

theorem event_pool (h : event s possible effect = .next t) (keeps : PoolKept s effect) : PoolKept s t := by
  rcases event_cases h with rfl | ⟨-, rfl⟩
  · exact .refl t
  · exact keeps.trans (.finish effect)

theorem serve_pool (codes : Byte → Bool) (keeps : KeepsPool run) (h : s.serve codes run = .next t) :
    PoolKept s t := by
  rcases serve_cases h with rfl | ⟨src, record, rfl⟩
  · exact .refl t
  · have taken : PoolKept s (s.takeRecord src) := by cases src <;> exact .of_frame (takeRecord_frame s _)
    have ran := taken.trans (keeps src record.arguments _)
    refine (ran.trans (.of_same ?_ ?_ ?_ ?_)).trans (.finish _) <;> simp [State.execute, State.reply]

theorem serve_beside_pool (codes : Byte → Bool) (h : s.serve codes run = .next t)
    (beside : run ∈ commandsBesideTheTable := by simp [commandsBesideTheTable]) : PoolKept s t :=
  serve_pool codes (beside_keeps_pool beside) h

/-- Every command keeps the two laws. -/
theorem exec_pool (c : Instr) (s t : State) (h : exec c s = .next t) : PoolKept s t := by
  cases c with
  | alignmentAchieved p => exact event_pool h (.modifyPort s p _)
  | alignmentLost p => exact event_pool h (.alignmentLost s p)
  | headerEvent p header => exact event_pool h (.headerArrives s p header)
  | bytesReceived p bytes => exact event_pool h (.bytesArrive s p bytes)
  | endEvent p => exact event_pool h (.packetEnds s p)
  | frameIdleExpiry r => exact event_pool h (.endIngressFrame s r .idle)
  | characterReceived character stopBit => exact event_pool h (.character s character stopBit)
  | gapAbort => exact event_pool h (.of_same rfl rfl rfl rfl)
  | controlPortCompletion straps => exact event_pool h (.completePort s straps)
  | unknownCommand => exact serve_beside_pool (run := unknownCommand) (fun code => !commandCodes.contains code) h
  | identify => exact serve_beside_pool (run := identify) (· == 0x01) h
  | claim => exact serve_beside_pool (run := claim) (· == 0x02) h
  | drop => exact serve_beside_pool (run := drop) (· == 0x03) h
  | leaseTime => exact serve_beside_pool (run := leaseTime) (· == 0x04) h
  | resetPart => exact serve_beside_pool (run := resetPart) (· == 0x05) h
  | portSet => exact serve_pool (· == 0x10) portSet_keeps_pool h
  | portStatus => exact serve_beside_pool (run := portStatus) (· == 0x11) h
  | routeRead => exact serve_beside_pool (run := routeRead) (· == 0x20) h
  | routeWrite => exact serve_pool (· == 0x21) routeWrite_keeps_pool h
  | routeEnable => exact serve_pool (· == 0x22) routeEnable_keeps_pool h
  | routeDisable => exact serve_pool (· == 0x23) routeDisable_keeps_pool h
  | tableScan => exact serve_beside_pool (run := tableScan) (· == 0x24) h
  | hold => exact serve_pool (· == 0x28) (gateCommand_keeps_pool fun _ _ _ => holdGate_pool) h
  | release => exact serve_pool (· == 0x29) (gateCommand_keeps_pool fun _ _ _ => releaseGate_pool) h
  | step => exact serve_pool (· == 0x2A) (gateCommand_keeps_pool fun _ _ _ => stepGate_pool) h
  | holdpointSet => exact serve_pool (· == 0x2B) holdpointSet_keeps_pool h
  | holdpointClear => exact serve_pool (· == 0x2C) holdpointClear_keeps_pool h
  | poolStatus => exact serve_beside_pool (run := poolStatus) (· == 0x30) h
  | trunkStatus => exact serve_beside_pool (run := trunkStatus) (· == 0x40) h
  | trunkHalt => exact serve_pool (· == 0x41) trunkHalt_keeps_pool h
  | trunkStart => exact serve_beside_pool (run := trunkStart) (· == 0x42) h
  | trunkRetrain => exact serve_beside_pool (run := trunkRetrain) (· == 0x43) h
  | noticeAck => exact serve_beside_pool (run := noticeAck) (· == 0x50) h
  | noticeReplay => exact serve_beside_pool (run := noticeReplay) (· == 0x51) h
  | noticeMask => exact serve_beside_pool (run := noticeMask) (· == 0x52) h
  | noticeRoute => exact serve_beside_pool (run := noticeRoute) (· == 0x53) h
  | countersRead => exact serve_pool (· == 0x60) countersRead_keeps_pool h
  | creditGrant rest => exact event_pool h (.takeGrant s rest)
  | remoteCommandRecord rest =>
    refine event_pool h ?_
    split
    · exact .takeRemote s rest
    · exact .of_same rfl rfl rfl rfl
  | acknowledgement rest => exact event_pool h (.acknowledge s rest)
  | unknownReverseRecord record => exact event_pool h (.of_same rfl rfl rfl rfl)
  | reverseAlignment => exact event_pool h (.of_same rfl rfl rfl rfl)
  | signalLoss =>
    refine event_pool h ?_
    split
    · exact .of_same rfl rfl rfl rfl
    · exact .of_same rfl rfl rfl rfl
  | trainTimerExpiry => exact event_pool h (.of_same rfl rfl rfl rfl)
  | retryTimerExpiry => exact event_pool h (.of_same rfl rfl rfl rfl)
  | transmissionCompletion straps => exact event_pool h (.completeTrunk s straps)
  | stallExpiry => exact event_pool h (.of_same rfl rfl rfl rfl)
  | leaseExpiry => exact event_pool h (.expireLease s)
  | graceExpiry straps => exact event_pool h (.expireGrace s straps)
  | powerOn straps resetLow =>
    cases resetLow
    · obtain rfl := Host.Outcome.next.inj h
      exact (PoolKept.partReset s _ _ _).trans (.finish _)
    · obtain rfl := Host.Outcome.next.inj h
      exact .holdInReset s _
  | resetNAsserted =>
    obtain rfl := Host.Outcome.next.inj h
    split
    · exact .holdInReset s _
    · exact .refl s
  | resetNReleased straps =>
    replace h : execResetNReleased straps s = .next t := h
    unfold execResetNReleased at h
    split at h
    · obtain rfl := Host.Outcome.next.inj h
      exact .refl s
    · obtain rfl := Host.Outcome.next.inj h
      exact (PoolKept.partReset s _ _ _).trans (.finish _)
    · obtain rfl := Host.Outcome.next.inj h
      exact (PoolKept.partReset s _ _ _).trans (.finish _)

end Part

/-- Settles O53: the front command keeps each law alone, and the queue of waiting commands is in neither. -/
theorem poolIsConserved : Obligations.PoolIsConserved := by
  have kept {s t : State} (h : step s = .next t) : PoolKept s t := by
    unfold step at h
    split at h
    · obtain rfl := Host.Outcome.next.inj h
      exact .refl s
    · next c rest _ =>
      have taken : PoolKept s { s with pending := rest } := .of_same rfl rfl rfl rfl
      exact taken.trans (exec_pool c _ t h)
  exact fun s t h => ⟨(kept h).segments, (kept h).descriptors⟩

end Sys2Proof.Machine
end

section
/-! The statements about a completion on the trunk (R69, R80, R114, R172), and about POOL_STATUS with SET_MARKS and
COUNTERS_READ with CLEAR (R84, R179). -/

namespace Sys2Proof.Machine

-- One theorem after another, as in the model's tests.
set_option Elab.async false

/-! ## A completion on the trunk -/

section Completion
variable {s : State} {straps : Straps}

/-- The part with nothing in flight on the trunk (R114). -/
def State.senderFree (s : State) : State := { s with sender := { s.sender with inFlight := .nothing, wire := [] } }

theorem senderFree_frame (s : State) : SameBut s s.senderFree [.sender] := by
  intro piece other
  cases piece <;> first | rfl | exact absurd (by decide) other

/-- A transmission on the trunk completes at a part that is not held. -/
theorem exec_transmissionCompletion (high : s.resetLine = .high) (sending : s.sender.inFlight ≠ .nothing) :
    exec (.transmissionCompletion straps) s = .next (s.completeTrunk straps).finish :=
  event_possible _ high (by simpa using sending)

theorem completeTrunk_stream (stream : s.sender.inFlight = .stream) :
    s.completeTrunk straps = s.senderFree.recordSent := by
  simp only [State.completeTrunk, stream]; rfl

/-- A reply that no pending part reset waits for takes none (R162). -/
theorem resetAfterReply_of_other {src : Source}
    (other : ∀ pending, s.resetPending = some pending → pending.source ≠ src) : s.resetAfterReply src straps = s := by
  unfold State.resetAfterReply
  split
  · next pending waits => exact if_neg (other pending waits)
  · rfl

theorem completeTrunk_reply (reply : s.sender.inFlight = .reply)
    (other : ∀ pending, s.resetPending = some pending → pending.source ≠ .remoteSource) :
    s.completeTrunk straps =
      (s.senderFree.modifySource .remoteSource fun x => { x with slot := none }).countTrunk fun c =>
        { c with repliesSent := bump c.repliesSent } := by
  simp only [State.completeTrunk, reply]
  exact resetAfterReply_of_other other

theorem completeTrunk_notice {sequence : Nat} (notice : s.sender.inFlight = .notice sequence) :
    s.completeTrunk straps =
      { s.senderFree with notices := s.notices.markSent sequence }.countTrunk fun c =>
        { c with noticesSent := bump c.noticesSent } := by
  simp only [State.completeTrunk, notice]; rfl

end Completion

/-- Settles O49: the part with nothing in flight, from which the head has been sent, the slot emptied or the notice
marked. -/
theorem transmissionCompletionFreesTheSender : Obligations.TransmissionCompletionFreesTheSender := by
  intro s straps high free
  refine ⟨fun record rest stream queue => ?_, fun reply other => ?_, fun sequence notice => ?_⟩
  · have head : s.senderFree.queue = record :: rest := queue
    obtain ⟨sent, only, left, pool, entry, counted⟩ := recordSent_spec head
    refine ⟨_, exec_transmissionCompletion high (by simp [stream]), ?_⟩
    rw [completeTrunk_stream stream]
    exact ⟨((senderFree_frame s).mono (by decide)).trans (sent.mono (by decide)), only, sent.sender, left, pool, entry,
      counted⟩
  · refine ⟨_, exec_transmissionCompletion high (by simp [reply]), ?_⟩
    rw [completeTrunk_reply reply other]
    have emptied := (modifySource_frame s.senderFree .remoteSource fun x => { x with slot := none }).mono
      (more := [.sender, .sourceRemote, .trunkCounters]) (by decide)
    exact ⟨(((senderFree_frame s).mono (by decide)).trans emptied).trans ((countTrunk_frame _ _).mono (by decide)), rfl,
      rfl, rfl⟩
  · refine ⟨_, exec_transmissionCompletion high (by simp [notice]), ?_⟩
    rw [completeTrunk_notice notice]
    refine ⟨fun piece other => ?_, rfl, rfl, rfl⟩
    cases piece <;> first | rfl | exact absurd (by decide) other


/-! ## POOL_STATUS -/

section Pool
variable {s : State} {src : Source}

/-- Taking a record moves nothing that POOL_STATUS reports. -/
theorem poolReport_takeRecord (s : State) (src : Source) : (s.takeRecord src).poolReport = s.poolReport := by
  simp only [State.poolReport, State.takeRecord_pool, State.takeRecord_routes, State.takeRecord_queue,
    State.sumRoutes_congr (s.takeRecord_routes src)]

theorem poolStatus_set (holds : s.holdsLease src = true) :
    poolStatus src [1] s = succeed s.setMarks s.poolReport := by
  simp [poolStatus, readFlag, holds]

theorem poolStatus_noLease (holds : s.holdsLease src = false) : poolStatus src [1] s = refuse s .noLease [] := by
  simp [poolStatus, readFlag, holds]

theorem poolStatus_badArg {choice : Byte} (h0 : choice ≠ 0) (h1 : choice ≠ 1) :
    poolStatus src [choice] s = refuse s .badArg [] := by
  simp only [poolStatus, readFlag_eq_none h0 h1]

end Pool

/-! ## The arguments of COUNTERS_READ -/

section Scope
variable {scope number choice : Byte} {rest : List Byte}

/-- The arguments that name a counter set and a choice read back (section 10.3). -/
theorem readScope_named {set : CounterScope} {clear : Bool} {arguments : List Byte}
    (h : arguments = set.bytes ++ [flagByte clear] ∧ set ≠ .trunk ∨ arguments = [2, flagByte clear] ∧ set = .trunk) :
    ∃ scope rest, arguments = scope :: rest ∧ readScope scope rest = some (some (set, clear)) := by
  rcases h with ⟨rfl, numbered⟩ | ⟨rfl, rfl⟩
  · rcases set with r | p | _ | k
    · exact ⟨_, _, rfl, by simp [readScope, readRoute_byte, readFlag_flagByte]⟩
    · exact ⟨_, _, rfl, by simp [readScope, readPort_byte, readFlag_flagByte]⟩
    · exact absurd rfl numbered
    · exact ⟨_, _, rfl, by simp [readScope, readSource_code, readFlag_flagByte]⟩
  · exact ⟨_, _, rfl, by simp [readScope, readFlag_flagByte]⟩

theorem scope_cases (low : scope.toNat ≤ 3) : scope = 0 ∨ scope = 1 ∨ scope = 2 ∨ scope = 3 := by
  bv_omega

theorem readSource_eq_none {b : Byte} (h1 : b ≠ 1) (h2 : b ≠ 2) : readSource b = none := by
  rw [readSource, if_neg (by simpa using h1), if_neg (by simpa using h2)]

/-- The reading of a number and a choice, for the scopes that have a number (R179). -/
def readNumbered (read : Byte → Option CounterScope) (args : List Byte) : Option (Option (CounterScope × Bool)) :=
  match args with
  | [number, choice] => some ((read number).bind fun set => (readFlag choice).map fun clear => (set, clear))
  | _ => none

/-- The counter set that a number names in its scope. -/
def readNumber (scope number : Byte) : Option CounterScope :=
  if scope = 0 then (readRoute number).map .route
  else if scope = 1 then (readPort number).map .port
  else (readSource number).map .source

theorem readScope_numbered (low : scope.toNat ≤ 3) (numbered : scope ≠ 2) :
    readScope scope rest = readNumbered (readNumber scope) rest := by
  rcases scope_cases low with rfl | rfl | rfl | rfl
  · rfl
  · rfl
  · exact absurd rfl numbered
  · rfl

theorem readNumbered_badLength {read : Byte → Option CounterScope} (length : rest.length ≠ 2) :
    readNumbered read rest = none := by
  unfold readNumbered
  split
  · exact absurd rfl length
  · rfl

theorem readNumbered_badArg {read : Byte → Option CounterScope}
    (outside : read number = none ∨ readFlag choice = none) : readNumbered read [number, choice] = some none := by
  rcases outside with h | h <;> simp [readNumbered, h]

/-- TRUNK has no number: its arguments are the choice alone (R179). -/
theorem readScope_trunk (choice : Byte) :
    readScope 2 [choice] = some ((readFlag choice).map fun clear => (.trunk, clear)) := rfl

theorem readScope_trunk_badLength (length : rest.length ≠ 1) : readScope 2 rest = none := by
  rcases rest with _ | ⟨choice, _ | ⟨next, rest⟩⟩
  · rfl
  · exact absurd rfl length
  · rfl

/-- A scope that names nothing is out of range whatever follows it (R179, R181). -/
theorem readScope_outOfRange (high : 3 < scope.toNat) : readScope scope rest = some none := by
  have other (n : Byte) (low : n.toNat ≤ 3) : scope ≠ n := fun e => by subst e; omega
  unfold readScope
  rw [if_neg (other 0 (by decide)), if_neg (other 1 (by decide)), if_neg (other 2 (by decide)),
    if_neg (other 3 (by decide))]

theorem readScope_badLength (low : scope.toNat ≤ 3) (length : rest.length ≠ if scope = 2 then 1 else 2) :
    readScope scope rest = none := by
  by_cases trunk : scope = 2
  · subst trunk
    exact readScope_trunk_badLength length
  · rw [readScope_numbered low trunk]
    exact readNumbered_badLength (by rwa [if_neg trunk] at length)

/-- A number that names no entry of its scope, or a choice that is neither 0 nor 1 (R179). -/
theorem readScope_badArg
    (outside : (scope = 0 ∧ 63 < number.toNat) ∨ (scope = 1 ∧ 3 < number.toNat) ∨
      (scope = 3 ∧ number ≠ 1 ∧ number ≠ 2) ∨ (scope.toNat ≤ 3 ∧ scope ≠ 2 ∧ choice ≠ 0 ∧ choice ≠ 1)) :
    readScope scope [number, choice] = some none := by
  rcases outside with ⟨rfl, h⟩ | ⟨rfl, h⟩ | ⟨rfl, h1, h2⟩ | ⟨low, numbered, h0, h1⟩
  · rw [readScope_numbered (by decide) (by decide)]
    exact readNumbered_badArg (.inl (congrArg (Option.map _) (readRoute_eq_none h)))
  · rw [readScope_numbered (by decide) (by decide)]
    exact readNumbered_badArg (.inl (congrArg (Option.map _) (readPort_eq_none h)))
  · rw [readScope_numbered (by decide) (by decide)]
    exact readNumbered_badArg (.inl (congrArg (Option.map _) (readSource_eq_none h1 h2)))
  · rw [readScope_numbered low numbered]
    exact readNumbered_badArg (.inr (readFlag_eq_none h0 h1))

end Scope

/-! ## COUNTERS_READ -/

/-- A cleared set reads 0 throughout (R179). -/
theorem counterSet_clearSet_self (s : State) (set : CounterScope) : ∀ c ∈ (s.clearSet set).counterSet set, c = 0 := by
  rcases set with r | p | _ | k
  · simp [State.clearSet, State.counterSet, RouteCounters.values]
  · simp [State.clearSet, State.counterSet, PortCounters.values]
  · simp [State.clearSet, State.counterSet, TrunkCounters.values]
  · simp [State.clearSet, State.counterSet, SourceCounters.values]

/-- The counters of a route, of a port and of the trunk are in its own part of the state. -/
theorem counterSet_clearSet_ne (s : State) {set other : CounterScope} (h : other ≠ set) :
    (s.clearSet set).counterSet other = s.counterSet other := by
  rcases set with r | p | _ | src
  · rcases other with k | k | _ | k
    · rw [State.counterSet, State.clearSet, State.route_countRoute_ne _ _ fun e => h (congrArg _ e)]; rfl
    all_goals rfl
  · rcases other with k | k | _ | k
    · rfl
    · rw [State.counterSet, State.clearSet, State.port_countPort_ne _ _ fun e => h (congrArg _ e)]; rfl
    all_goals rfl
  · rcases other with k | k | _ | k
    · rfl
    · rfl
    · exact absurd rfl h
    · rfl
  · rcases other with k | k | _ | k
    · cases src <;> rfl
    · cases src <;> rfl
    · cases src <;> rfl
    · rw [State.counterSet, State.clearSet, State.source_countSource_ne _ _ fun e => h (congrArg _ e)]; rfl

section Counters
variable {s : State} {src : Source} {scope : Byte} {rest : List Byte} {set : CounterScope}

theorem countersRead_badLength (unread : readScope scope rest = none) :
    countersRead src (scope :: rest) s = refuse s .badLength [] := by
  simp only [countersRead, unread]

theorem countersRead_badArg (outside : readScope scope rest = some none) :
    countersRead src (scope :: rest) s = refuse s .badArg [] := by
  simp only [countersRead, outside]

theorem countersRead_noLease (read : readScope scope rest = some (some (set, true))) (holds : s.holdsLease src = false) :
    countersRead src (scope :: rest) s = refuse s .noLease [] := by
  simp [countersRead, read, holds]

/-- The report is taken before the set is cleared (R179). -/
theorem countersRead_clear (read : readScope scope rest = some (some (set, true))) (holds : s.holdsLease src = true) :
    countersRead src (scope :: rest) s =
      succeed (s.clearSet set) (set.bytes ++ [1] ++ (s.counterSet set).flatMap word32) := by
  simp [countersRead, read, holds, flagByte]

end Counters

/-- Settles O41: the two commands at the part that took the record, and what their arguments read as. -/
theorem marksAndCountersAreSet : Obligations.MarksAndCountersAreSet := by
  intro s src record
  refine ⟨fun serves one holder => ?_, fun set serves named holder => ?_, fun serves one other => ?_,
    fun set serves named other => ?_, fun choice serves given h0 h1 => ?_, fun serves empty => ?_,
    fun scope rest serves given => ⟨fun high => ?_, fun low length => ?_, fun choice trunk alone h0 h1 => ?_,
      fun number choice both outside => ?_⟩⟩
  · refine ⟨(s.takeRecord src).setMarks, s.poolReport, ?_, rfl, fun piece hp => ?_, ?_⟩
    · rw [exec_poolStatus serves, answerOf, one, poolStatus_set (holdsLease_takeRecord holder), poolReport_takeRecord]
      rfl
    · cases piece <;> first | rfl | exact absurd (by decide) hp
    · rw [State.setMarks, State.takeRecord_pool]
  · obtain ⟨scope, rest, given, read⟩ := readScope_named (clear := true) named
    refine ⟨(s.takeRecord src).clearSet set, ?_, counterSet_clearSet_self _ set, fun other ne => ?_, rfl⟩
    · rw [exec_countersRead serves, answerOf, given, countersRead_clear read (holdsLease_takeRecord holder),
        counterSet_takeRecord]
      rfl
    · rw [counterSet_clearSet_ne _ ne, counterSet_takeRecord]
  · exact refuses_of_run (exec_poolStatus serves) (one ▸ poolStatus_noLease (not_holdsLease_takeRecord other))
  · obtain ⟨scope, rest, given, read⟩ := readScope_named (clear := true) named
    exact refuses_of_run (exec_countersRead serves)
      (given ▸ countersRead_noLease read (not_holdsLease_takeRecord other))
  · exact refuses_of_run (exec_poolStatus serves) (given ▸ poolStatus_badArg h0 h1)
  · exact refuses_of_run (exec_countersRead serves) (by rw [empty]; rfl)
  all_goals refine refuses_of_run (exec_countersRead serves) (given ▸ ?_)
  · exact countersRead_badArg (readScope_outOfRange high)
  · exact countersRead_badLength (readScope_badLength low length)
  · subst trunk alone
    exact countersRead_badArg (by rw [readScope_trunk, readFlag_eq_none h0 h1]; rfl)
  · subst both
    exact countersRead_badArg (readScope_badArg outside)

end Sys2Proof.Machine
end

section
/-! The statements about the gate commands HOLD, RELEASE and STEP (R88 to R91), about the hold points (R96, R97), and
about the checks that come first in every command (R88, R154, R155). -/

namespace Sys2Proof.Machine

-- One theorem after another, as in the model's tests.
set_option Elab.async false

/-! ## The checks around a gate move -/

/-- A byte is no route number, or it is the number of a route (R18). -/
theorem readRoute_none_or_named (b : Byte) : readRoute b = none ∨ ∃ r : Fin 64, b = byte r.val := by
  by_cases low : b.toNat < 64
  · exact .inr ⟨⟨_, low⟩, by simp [byte]⟩
  · exact .inl (readRoute_eq_none (by omega))

section GateCommand
variable {move : State → Fin 64 → Option State} {s : State} {src : Source} {args : List Byte} {r : Fin 64}

/-- Without the lease the results are carried when the arguments are exactly one route number (R88). -/
theorem gateCommand_noLease (other : s.holdsLease src = false) :
    gateCommand move src [byte r.val] s = refuse s .noLease (gateResults r (s.route r) (s.route r)) := by
  simp [gateCommand, other, readRoute_byte]

theorem gateCommand_noLease_unnamed (other : s.holdsLease src = false) (unnamed : ∀ r : Fin 64, args ≠ [byte r.val]) :
    gateCommand move src args s = refuse s .noLease [] := by
  rcases args with _ | ⟨route, _ | ⟨next, rest⟩⟩
  · simp [gateCommand, other]
  · rcases readRoute_none_or_named route with out | ⟨r, rfl⟩
    · simp [gateCommand, other, out]
    · exact absurd rfl (unnamed r)
  · simp [gateCommand, other]

theorem gateCommand_badLength (holds : s.holdsLease src = true) (length : args.length ≠ 1) :
    gateCommand move src args s = refuse s .badLength [] := by
  simp [gateCommand, holds, length]

theorem gateCommand_badArg {route : Byte} (holds : s.holdsLease src = true) (out : readRoute route = none) :
    gateCommand move src [route] s = refuse s .badArg [] := by
  simp [gateCommand, holds, out]

theorem gateCommand_moved {t : State} (holds : s.holdsLease src = true) (moved : move s r = some t) :
    gateCommand move src [byte r.val] s = succeed t (gateResults r (s.route r) (t.route r)) := by
  simp [gateCommand, holds, readRoute_byte, moved]

theorem gateCommand_wrongState (holds : s.holdsLease src = true) (unmoved : move s r = none) :
    gateCommand move src [byte r.val] s = refuse s .wrongState (gateResults r (s.route r) (s.route r)) := by
  simp [gateCommand, holds, readRoute_byte, unmoved]

end GateCommand

/-! ## The moves, gate by gate -/

section Moves
variable {s : State} {r : Fin 64}

/-- HOLD under an open frame waits for its end (R89). -/
theorem holdGate_closes (gate : (s.route r).gate = .opened ∨ (s.route r).gate = .stepping)
    (assembling : (s.route r).isAssembling = true) :
    holdGate s r = some (s.modifyRoute r fun x => { x with gate := .closing }) := by
  unfold Route.isAssembling at assembling
  split at assembling
  · next assembly => rcases gate with gate | gate <;> simp only [holdGate, gate, assembly]
  · cases assembling

/-- HOLD without an open frame shuts the gate at once and says so (R89, R93). -/
theorem holdGate_shuts (gate : (s.route r).gate = .opened ∨ (s.route r).gate = .stepping)
    (out : (s.route r).isAssembling = false) :
    holdGate s r = some ((s.modifyRoute r fun x => { x with gate := .shut }).raise (.routeShut r .hold none)) := by
  unfold Route.isAssembling at out
  split at out
  · cases out
  · rcases gate with gate | gate <;> simp only [holdGate, gate, State.shutGate]

theorem holdGate_stays (gate : (s.route r).gate = .closing ∨ (s.route r).gate = .shut) : holdGate s r = some s := by
  rcases gate with gate | gate <;> simp only [holdGate, gate]

theorem holdGate_refuses (disabled : (s.route r).gate = .disabled) : holdGate s r = none := by
  simp only [holdGate, disabled]

theorem releaseGate_opens (served : (s.route r).gate ≠ .disabled) :
    releaseGate s r = some (s.modifyRoute r fun x => { x with gate := .opened }) := by
  unfold releaseGate
  split
  · next disabled => exact absurd disabled served
  · rfl

theorem releaseGate_refuses (disabled : (s.route r).gate = .disabled) : releaseGate s r = none := by
  simp only [releaseGate, disabled]

theorem stepGate_steps (shut : (s.route r).gate = .shut) :
    stepGate s r = some (s.modifyRoute r fun x => { x with gate := .stepping }) := by
  simp only [stepGate, shut]

theorem stepGate_refuses (other : (s.route r).gate ≠ .shut) : stepGate s r = none := by
  unfold stepGate
  split
  · next shut => exact absurd shut other
  · rfl

end Moves

/-! ## HOLD, RELEASE and STEP -/

/-- The results of a command that changed a route's gate alone (section 10.3). -/
theorem gateResults_gate (r : Fin 64) (x : Route) (after : Gate) :
    gateResults r x { x with gate := after } =
      [byte r.val, x.gate.code, after.code, x.assembly.code]
        ++ (match x.assembly with
            | .assembling frame _ => 1 :: word16 frame.number
            | _ => [0, 0, 0]) := by
  unfold gateResults
  rcases x.assembly with _ | ⟨frame, line⟩ | _ <;> rfl

/-- An entry changed at the part that took the record. -/
theorem takeRecord_modifyRoute (s : State) (src : Source) (r : Fin 64) (f : Route → Route) :
    SameBut (s.takeRecord src) ((s.takeRecord src).modifyRoute r f) [.routes] ∧
      OnlyRoute s ((s.takeRecord src).modifyRoute r f) r ∧
      ((s.takeRecord src).modifyRoute r f).route r = f (s.route r) :=
  ⟨modifyRoute_frame _ r f,
    fun k hk => (modifyRoute_onlyRoute _ r f k hk).trans (s.takeRecord_route src k), by simp⟩

section Answers
variable {i : Instr} {move : State → Fin 64 → Option State} {s t : State} {src : Source} {record : CommandRecord}
  {r : Fin 64} {after : Gate}

theorem exec_gate_moved (answers : exec i s = .next (answerOf (gateCommand move) s src record))
    (holder : s.lease.holder = some src) (arguments : record.arguments = [byte r.val])
    (moved : move (s.takeRecord src) r = some t) :
    exec i s = .next (t.answered src record .ok (gateResults r (s.route r) (t.route r))) := by
  rw [answers, answerOf, arguments, gateCommand_moved (holdsLease_takeRecord holder) moved, s.takeRecord_route]
  rfl

/-- A gate command that gives the route another gate. -/
theorem exec_gate_set (answers : exec i s = .next (answerOf (gateCommand move) s src record))
    (holder : s.lease.holder = some src) (arguments : record.arguments = [byte r.val])
    (moved : move (s.takeRecord src) r = some ((s.takeRecord src).modifyRoute r fun x => { x with gate := after })) :
    ∃ b, exec i s = .next (b.answered src record .ok (gateResults r (s.route r) { s.route r with gate := after })) ∧
      SameBut (s.takeRecord src) b [.routes] ∧ OnlyRoute s b r ∧ b.route r = { s.route r with gate := after } := by
  obtain ⟨frame, only, entry⟩ := takeRecord_modifyRoute s src r fun x => { x with gate := after }
  exact ⟨_, entry ▸ exec_gate_moved answers holder arguments moved, frame, only, entry⟩

theorem refuses_gate (answers : exec i s = .next (answerOf (gateCommand move) s src record))
    (holder : s.lease.holder = some src) (arguments : record.arguments = [byte r.val])
    (unmoved : move (s.takeRecord src) r = none) :
    Refuses i s src record .wrongState (gateResults r (s.route r) (s.route r)) := by
  have refused := gateCommand_wrongState (holdsLease_takeRecord holder) unmoved
  rw [s.takeRecord_route] at refused
  exact refuses_of_run answers (arguments ▸ refused)

end Answers

/-- Settles O39: each row's move is looked up at the gate, and the reply is read off the entry. -/
theorem holdReleaseAndStepMoveTheGate : Obligations.HoldReleaseAndStepMoveTheGate := by
  intro s src record r holder arguments x results
  have reply (after : Gate) : gateResults r x { x with gate := after } = results after := gateResults_gate r x after
  have route : (s.takeRecord src).route r = x := s.takeRecord_route src r
  refine ⟨fun serves gate assembling => ?_, fun serves gate out => ?_, fun serves gate => ?_, fun serves served => ?_,
    fun serves shut => ?_, fun serves disabled => ?_, fun serves disabled => ?_, fun serves other => ?_⟩
  · rw [← reply]
    exact exec_gate_set (exec_hold serves) holder arguments
      (holdGate_closes (by rwa [route]) (by rwa [route]))
  · obtain ⟨frame, only, entry⟩ := takeRecord_modifyRoute s src r fun x => { x with gate := .shut }
    have raised := raise_frame ((s.takeRecord src).modifyRoute r fun x => { x with gate := .shut })
      (.routeShut r .hold none)
    have shut := exec_gate_moved (exec_hold serves) holder arguments
      (holdGate_shuts (by rwa [route]) (by rwa [route]))
    rw [raised.route r, entry, reply] at shut
    exact ⟨_, shut, (frame.mono (by decide)).trans (raised.mono (by decide)), only.trans (raised.onlyRoute r),
      (raised.route r).trans entry, by simp [State.raise]⟩
  · rw [← reply]
    have stays := exec_gate_moved (exec_hold serves) holder arguments (holdGate_stays (by rwa [route]))
    rwa [route] at stays
  · rw [← reply]
    exact exec_gate_set (exec_release serves) holder arguments (releaseGate_opens (by rwa [route]))
  · rw [← reply]
    exact exec_gate_set (exec_step serves) holder arguments (stepGate_steps (by rwa [route]))
  · rw [← disabled, ← reply]
    exact refuses_gate (exec_hold serves) holder arguments (holdGate_refuses (by rwa [route]))
  · rw [← disabled, ← reply]
    exact refuses_gate (exec_release serves) holder arguments (releaseGate_refuses (by rwa [route]))
  · rw [← reply]
    exact refuses_gate (exec_step serves) holder arguments (stepGate_refuses (by rwa [route]))

/-! ## The arguments of HOLDPOINT_SET -/

/-- The value of a condition as HOLDPOINT_SET's arguments write it after the condition byte (R96). -/
def HoldCondition.valueBytes : HoldCondition → List Byte
  | .frameNumber number => word16 number
  | .content code => [byte code]
  | .damage => []

section Condition
variable {condition : Byte} {value : List Byte}

theorem condition_cases (low : condition.toNat ≤ 2) : condition = 0 ∨ condition = 1 ∨ condition = 2 := by
  bv_omega

/-- A condition in range reads back (R96). -/
theorem readCondition_valueBytes {condition : HoldCondition}
    (number : ∀ n, condition = .frameNumber n → n < 65536)
    (code : ∀ n, condition = .content n → 0x08 ≤ n ∧ n ≤ 0x3F) :
    readCondition condition.name.code condition.valueBytes = some (some condition) := by
  rcases condition with n | n | _
  · exact congrArg (fun n => some (some (HoldCondition.frameNumber n))) (read16_word16 (number n rfl))
  · have range := code n rfl
    have same : (byte n).toNat = n := by rw [byte_toNat]; omega
    have read : readContentCode (byte n).toNat = some n := by rw [same, readContentCode, if_pos range]
    exact congrArg (fun code => some (code.map HoldCondition.content)) read
  · rfl

/-- A condition that names nothing is out of range whatever follows it (R181). -/
theorem readCondition_unnamed (high : 2 < condition.toNat) : readCondition condition value = some none := by
  have other (n : Byte) (low : n.toNat ≤ 2) : condition ≠ n := fun e => by subst e; omega
  unfold readCondition
  rw [if_neg (other 0 (by decide)), if_neg (other 1 (by decide)), if_neg (other 2 (by decide))]

/-- The length a condition calls for (R96). -/
def valueLength (condition : Byte) : Nat := if condition = 0 then 2 else if condition = 1 then 1 else 0

/-- A value of another length than its condition calls for does not read (R96, R181). -/
theorem readCondition_eq_none_iff (low : condition.toNat ≤ 2) :
    readCondition condition value = none ↔ value.length ≠ valueLength condition := by
  rcases condition_cases low with rfl | rfl | rfl
  · rcases value with _ | ⟨lo, _ | ⟨hi, _ | ⟨next, rest⟩⟩⟩ <;> simp [readCondition, valueLength]
  · rcases value with _ | ⟨code, _ | ⟨next, rest⟩⟩ <;> simp [readCondition, valueLength]
  · rcases value with _ | ⟨next, rest⟩ <;> simp [readCondition, valueLength]

/-- A content code out of range (R20, R96). -/
theorem readCondition_content {code : Byte} (out : code.toNat < 0x08 ∨ 0x3F < code.toNat) :
    readCondition 1 [code] = some none := by
  have none : readContentCode code.toNat = none := if_neg (by omega)
  exact congrArg (fun code => some (code.map HoldCondition.content)) none

end Condition

theorem readHoldKind_eq_none {b : Byte} (high : 1 < b.toNat) : readHoldKind b = none := by
  have other (n : Byte) (low : n.toNat ≤ 1) : b ≠ n := fun e => by subst e; omega
  rw [readHoldKind, readFlag_eq_none (other 0 (by decide)) (other 1 (by decide))]; rfl

/-! ## HOLDPOINT_SET and HOLDPOINT_CLEAR -/

section HoldPoints
variable {s : State} {src : Source} {route kind condition : Byte} {args value : List Byte} {r : Fin 64}

theorem holdpointSet_noLease (other : s.holdsLease src = false) :
    holdpointSet src args s = refuse s .noLease [] := by simp [holdpointSet, other]

theorem holdpointSet_short (holds : s.holdsLease src = true) (short : args.length < 3) :
    holdpointSet src args s = refuse s .badLength [] := by
  simp only [holdpointSet, holds, if_true]
  split
  · simp only [List.length_cons] at short; omega
  · rfl

theorem holdpointSet_badLength (holds : s.holdsLease src = true) (unread : readCondition condition value = none) :
    holdpointSet src (route :: kind :: condition :: value) s = refuse s .badLength [] := by
  simp only [holdpointSet, holds, if_true, unread]

/-- A route, a kind or a value out of range, once the length is right (R96). -/
theorem holdpointSet_badArg {read : Option HoldCondition} (holds : s.holdsLease src = true)
    (given : readCondition condition value = some read)
    (out : readRoute route = none ∨ readHoldKind kind = none ∨ read = none) :
    holdpointSet src (route :: kind :: condition :: value) s = refuse s .badArg [] := by
  simp only [holdpointSet, holds, if_true, given]
  split
  · next named kindRead => simp [named, kindRead] at out
  · rfl

/-- HOLDPOINT_SET arms what its arguments name, at any gate (R96). -/
theorem holdpointSet_arms {kind : HoldKind} {named : HoldCondition} (holds : s.holdsLease src = true)
    (given : readCondition condition value = some (some named)) :
    holdpointSet src (byte r.val :: kind.code :: condition :: value) s =
      succeed (s.modifyRoute r fun x => { x with holdPoint := some { kind, condition := named, armed := true } })
        (byte r.val :: HoldPoint.bytes { kind, condition := named, armed := true }
          ++ holdPointBytes (s.route r).holdPoint) := by
  simp only [holdpointSet, holds, if_true, given, readRoute_byte, readHoldKind_code]

theorem holdpointClear_noLease (other : s.holdsLease src = false) :
    holdpointClear src args s = refuse s .noLease [] := by simp [holdpointClear, other]

theorem holdpointClear_badLength (holds : s.holdsLease src = true) (length : args.length ≠ 1) :
    holdpointClear src args s = refuse s .badLength [] := by
  simp only [holdpointClear, holds, if_true]
  split
  · exact absurd rfl length
  · rfl

/-- HOLDPOINT_CLEAR takes the hold point away, at any gate (R97). -/
theorem holdpointClear_clears (holds : s.holdsLease src = true) :
    holdpointClear src [byte r.val] s =
      succeed (s.modifyRoute r fun x => { x with holdPoint := none })
        (byte r.val :: holdPointBytes (s.route r).holdPoint) := by
  simp only [holdpointClear, holds, if_true, readRoute_byte]

end HoldPoints

theorem holdpointClear_checks : LeaseChecks .holdpointClear 0x2C 1 routeOutOfRange :=
  leaseChecks_of_run exec_holdpointClear holdpointClear_noLease holdpointClear_badLength
    fun holds out => by simp [holdpointClear, holds, out]

/-- Settles O40: the arguments are read in the order of the checks, and the route's entry alone is changed. -/
theorem holdPointIsSetAndCleared : Obligations.HoldPointIsSetAndCleared := by
  refine ⟨holdpointClear_checks, fun s src record serves => ⟨fun other => ?_, fun holder => ?_⟩,
    fun s src record r holder => ?_⟩
  · exact refuses_of_run (exec_holdpointSet serves) (holdpointSet_noLease (not_holdsLease_takeRecord other))
  · have holds := holdsLease_takeRecord holder
    refine ⟨fun short => refuses_of_run (exec_holdpointSet serves) (holdpointSet_short holds short),
      fun r kind condition value given => ?_⟩
    have refuses {status : Status} (refused : holdpointSet src (r :: kind :: condition :: value) (s.takeRecord src) =
        refuse (s.takeRecord src) status []) : Refuses .holdpointSet s src record status [] :=
      refuses_of_run (exec_holdpointSet serves) (given ▸ refused)
    refine ⟨fun low length => refuses (holdpointSet_badLength holds ((readCondition_eq_none_iff low).2 length)),
      fun high => refuses (holdpointSet_badArg holds (readCondition_unnamed high) (.inr (.inr rfl))),
      fun low length out => refuses ?_⟩
    obtain ⟨read, named⟩ := Option.ne_none_iff_exists'.1 ((readCondition_eq_none_iff low).not_left.2 length)
    refine holdpointSet_badArg holds named ?_
    rcases out with out | out | ⟨rfl, code, rfl, out⟩
    · exact .inl (readRoute_eq_none out)
    · exact .inr (.inl (readHoldKind_eq_none out))
    · rw [readCondition_content out] at named
      exact .inr (.inr (Option.some.inj named).symm)
  · intro x before
    have route : (s.takeRecord src).route r = x := s.takeRecord_route src r
    have carried : holdPointBytes x.holdPoint = before := holdPointBytes_eq x.holdPoint
    have holds := holdsLease_takeRecord holder
    refine ⟨fun kind condition serves arguments number code => ?_, fun serves arguments => ?_⟩
    · have given : record.arguments = byte r.val :: kind.code :: condition.name.code :: condition.valueBytes :=
        arguments
      refine ⟨_, ?_, takeRecord_modifyRoute s src r fun x =>
        { x with holdPoint := some { kind, condition, armed := true } }⟩
      rw [exec_holdpointSet serves, answerOf, given,
        holdpointSet_arms holds (readCondition_valueBytes number code), route, carried]
      rfl
    · refine ⟨_, ?_, takeRecord_modifyRoute s src r fun x => { x with holdPoint := none }⟩
      rw [exec_holdpointClear serves, answerOf, arguments, holdpointClear_clears holds, route, carried]
      rfl

/-! ## The checks that come first -/

/-- The row answers NO_LEASE, with no results, to a source that does not hold the lease (R155). -/
def NeedsLease (i : Instr) (code : Byte) : Prop :=
  ∀ {s src record}, Serves s src record code → s.lease.holder ≠ some src → Refuses i s src record .noLease []

/-- The row answers BAD_LENGTH to arguments of another length, from any source (R155). -/
def NeedsLength (i : Instr) (code : Byte) (n : Nat) : Prop :=
  ∀ {s src record}, Serves s src record code → record.arguments.length ≠ n → Refuses i s src record .badLength []

/-- The row answers BAD_LENGTH to the lease holder's arguments of another length (R155). -/
def HolderNeedsLength (i : Instr) (code : Byte) (n : Nat) : Prop :=
  ∀ {s src record}, Serves s src record code → s.lease.holder = some src → record.arguments.length ≠ n →
    Refuses i s src record .badLength []

section Checks
variable {i : Instr} {code : Byte} {n : Nat} {run : Source → List Byte → State → Execution}

theorem LeaseChecks.needsLease {out : List Byte → Prop} (checks : LeaseChecks i code n out) : NeedsLease i code :=
  fun serves other => (checks _ _ _ serves).1 other

theorem LeaseChecks.needsLength {out : List Byte → Prop} (checks : LeaseChecks i code n out) :
    HolderNeedsLength i code n := fun serves holder length => (checks _ _ _ serves).2.1 holder length

variable (answers : ∀ {s src record}, Serves s src record code → exec i s = .next (answerOf run s src record))
include answers

theorem needsLease_of_run
    (refused : ∀ {src args s}, s.holdsLease src = false → run src args s = refuse s .noLease []) :
    NeedsLease i code :=
  fun serves other => refuses_of_run (answers serves) (refused (not_holdsLease_takeRecord other))

theorem needsLength_of_run (refused : ∀ {src args s}, args.length ≠ n → run src args s = refuse s .badLength []) :
    NeedsLength i code n :=
  fun serves length => refuses_of_run (answers serves) (refused length)

theorem holderNeedsLength_of_run (refused : ∀ {src args s}, s.holdsLease src = true → args.length ≠ n →
    run src args s = refuse s .badLength []) : HolderNeedsLength i code n :=
  fun serves holder length => refuses_of_run (answers serves) (refused (holdsLease_takeRecord holder) length)

end Checks

/-! ### The rows that need the lease -/

theorem leaseCommands_need_lease : ∀ command ∈ leaseCommands, NeedsLease command.1 command.2 := by
  simp only [leaseCommands, List.forall_mem_cons]
  exact ⟨needsLease_of_run exec_leaseTime fun other => by simp [leaseTime, other],
    needsLease_of_run exec_resetPart fun other => by simp [resetPart, other],
    fun serves other => refuses_of_run (exec_portSet serves) (portSet_noLease other),
    needsLease_of_run exec_routeWrite routeWrite_noLease, routeEnable_checks.needsLease,
    routeDisable_checks.needsLease, needsLease_of_run exec_holdpointSet holdpointSet_noLease,
    holdpointClear_checks.needsLease, needsLease_of_run exec_trunkHalt fun other => by simp [trunkHalt, other],
    needsLease_of_run exec_trunkStart fun other => by simp [trunkStart, other],
    needsLease_of_run exec_trunkRetrain fun other => by simp [trunkRetrain, other],
    needsLease_of_run exec_noticeMask fun other => by simp [noticeMask, other],
    needsLease_of_run exec_noticeRoute fun other => by simp [noticeRoute, other], List.forall_mem_nil _⟩

/-! ### The rows whose arguments have one length -/

section Length
variable {s : State} {src : Source} {args : List Byte}

theorem portStatus_badLength (length : args.length ≠ 1) : portStatus src args s = refuse s .badLength [] := by
  unfold portStatus; split
  · exact absurd rfl length
  · rfl

theorem routeRead_badLength (length : args.length ≠ 1) : routeRead src args s = refuse s .badLength [] := by
  unfold routeRead; split
  · exact absurd rfl length
  · rfl

theorem poolStatus_badLength (length : args.length ≠ 1) : poolStatus src args s = refuse s .badLength [] := by
  unfold poolStatus; split
  · exact absurd rfl length
  · rfl

theorem noticeAck_badLength (length : args.length ≠ 2) : noticeAck src args s = refuse s .badLength [] := by
  unfold noticeAck; split
  · exact absurd rfl length
  · rfl

theorem leaseTime_badLength (holds : s.holdsLease src = true) (length : args.length ≠ 2) :
    leaseTime src args s = refuse s .badLength [] := by
  simp only [leaseTime, holds, if_true]; split
  · exact absurd rfl length
  · rfl

theorem noticeRoute_badLength (holds : s.holdsLease src = true) (length : args.length ≠ 1) :
    noticeRoute src args s = refuse s .badLength [] := by
  simp only [noticeRoute, holds, if_true]; split
  · exact absurd rfl length
  · rfl

/-- Arguments of another length than 0 are not empty. -/
theorem isEmpty_eq_false (length : args.length ≠ 0) : args.isEmpty = false := by
  simpa using length

end Length

theorem openCommands_need_length :
    ∀ command ∈ openCommands, NeedsLength command.1 command.2.1 command.2.2 := by
  simp only [openCommands, List.forall_mem_cons]
  exact ⟨needsLength_of_run exec_identify fun length => by simp [identify, isEmpty_eq_false length],
    needsLength_of_run exec_portStatus portStatus_badLength, needsLength_of_run exec_routeRead routeRead_badLength,
    needsLength_of_run exec_tableScan fun length => by simp [tableScan, isEmpty_eq_false length],
    needsLength_of_run exec_poolStatus poolStatus_badLength,
    needsLength_of_run exec_trunkStatus fun length => by simp [trunkStatus, isEmpty_eq_false length],
    needsLength_of_run exec_noticeAck noticeAck_badLength,
    needsLength_of_run exec_noticeReplay fun length => by simp [noticeReplay, isEmpty_eq_false length],
    List.forall_mem_nil _⟩

theorem fixedLeaseCommands_need_length :
    ∀ command ∈ fixedLeaseCommands, HolderNeedsLength command.1 command.2.1 command.2.2 := by
  simp only [fixedLeaseCommands, List.forall_mem_cons]
  exact ⟨holderNeedsLength_of_run exec_leaseTime leaseTime_badLength,
    holderNeedsLength_of_run exec_resetPart fun holds length => by simp [resetPart, holds, isEmpty_eq_false length],
    fun serves holder length => refuses_of_run (exec_portSet serves) (portSet_badLength holder length),
    routeEnable_checks.needsLength, routeDisable_checks.needsLength,
    holderNeedsLength_of_run exec_hold gateCommand_badLength,
    holderNeedsLength_of_run exec_release gateCommand_badLength,
    holderNeedsLength_of_run exec_step gateCommand_badLength, holdpointClear_checks.needsLength,
    holderNeedsLength_of_run exec_trunkHalt fun holds length => by simp [trunkHalt, holds, isEmpty_eq_false length],
    holderNeedsLength_of_run exec_trunkStart fun holds length => by simp [trunkStart, holds, isEmpty_eq_false length],
    holderNeedsLength_of_run exec_trunkRetrain fun holds length => by
      simp [trunkRetrain, holds, isEmpty_eq_false length],
    holderNeedsLength_of_run exec_noticeMask fun holds length => by simp [noticeMask, holds, length],
    holderNeedsLength_of_run exec_noticeRoute noticeRoute_badLength, List.forall_mem_nil _⟩

/-! ### All rows -/

/-- HOLD, RELEASE and STEP are one command with three moves (R88). -/
theorem gateCommands_run : ∀ command ∈ gateCommands, ∃ move, ∀ {s src record}, Serves s src record command.2 →
    exec command.1 s = .next (answerOf (gateCommand move) s src record) := by
  simp only [gateCommands, List.forall_mem_cons]
  exact ⟨⟨holdGate, exec_hold⟩, ⟨releaseGate, exec_release⟩, ⟨stepGate, exec_step⟩, List.forall_mem_nil _⟩

/-- Settles O27: each list of commands by the lemma about its rows. -/
theorem commonChecksComeFirst : Obligations.CommonChecksComeFirst := by
  refine ⟨fun s src record serves unnamed => refuses_of_run (exec_unknownCommand serves unnamed) rfl,
    fun i code s src record mem => leaseCommands_need_lease _ mem,
    fun i code s src record r mem serves other arguments low => ?_,
    fun i code s src record mem serves other unnamed => ?_,
    fun i code n s src record mem => openCommands_need_length _ mem,
    fun i code n s src record mem => fixedLeaseCommands_need_length _ mem,
    fun i code s src record mem serves holder ⟨route, arguments, high⟩ => ?_⟩
  all_goals obtain ⟨move, answers⟩ := gateCommands_run _ mem
  · have refused := gateCommand_noLease (move := move) (r := ⟨r, low⟩) (not_holdsLease_takeRecord other)
    rw [s.takeRecord_route] at refused
    exact refuses_of_run (answers serves) (arguments ▸ refused)
  · exact refuses_of_run (answers serves) (gateCommand_noLease_unnamed (not_holdsLease_takeRecord other) unnamed)
  · exact refuses_of_run (answers serves)
      (arguments ▸ gateCommand_badArg (holdsLease_takeRecord holder) (readRoute_eq_none high))

end Sys2Proof.Machine
end

section
/-! SUPPORT. What the end of an event starts on the trunk, case by case (R111 to R113, R120, R121, R172): which notice a
path is offered, one equation for each choice of the sender, and what the stall timer's following leaves as it was. -/

namespace Sys2Proof.Machine

-- One theorem after another, as in the model's tests.
set_option Elab.async false

/-! ## The notice offered to a path -/

section Offer
variable {s t : State} {n : Notice}

theorem eligible_iff : s.Eligible n ↔ (!n.sent && !s.inTransmission n.sequence) = true := by
  simp [State.Eligible, State.inTransmission]

/-- What the paths are offered is the first eligible notice of the queue (R172). -/
theorem offers_iff : s.Offers n ↔ s.oldestEligible = some n := by
  simp only [State.oldestEligible, List.find?_eq_some_iff_append, State.Offers, eligible_iff]
  grind

theorem offersNone_iff : s.OffersNone ↔ s.oldestEligible = none := by
  simp only [State.oldestEligible, List.find?_eq_none, State.OffersNone, eligible_iff]

/-- The offer depends on the held notices and on those in transmission alone. -/
theorem oldestEligible_congr (notices : t.notices = s.notices)
    (transmission : ∀ sequence, t.inTransmission sequence = s.inTransmission sequence) :
    t.oldestEligible = s.oldestEligible := by
  simp only [State.oldestEligible, notices, transmission]

/-- Under destination REMOTE the control port starts no notice, so the sender is offered what it was (R156). -/
theorem startControlPort_offer (remote : s.notices.destination = .remoteSource) :
    s.startControlPort.oldestEligible = s.oldestEligible := by
  refine oldestEligible_congr (startControlPort_frame s).notices fun sequence => ?_
  rcases sending : s.transmitter.sending with _ | _ | _
  · rcases slot : s.sourceLocal.slot with _ | reply
    · simp [State.startControlPort, sending, slot, remote]
    · simp only [State.startControlPort, sending, slot, State.inTransmission]
      rfl
  · simp [State.startControlPort, sending]
  · simp [State.startControlPort, sending]

end Offer

/-! ## The choice of the sender -/

section Sender
variable {s : State}

theorem startSender_busy (busy : s.sender.inFlight ≠ .nothing ∨ s.link.state ≠ .locked) : s.startSender = s := by
  unfold State.startSender
  split
  · next free locked => simp [free, locked] at busy
  · rfl

theorem startSender_reply {reply : Reply} (free : s.sender.inFlight = .nothing) (locked : s.link.state = .locked)
    (slot : s.sourceRemote.slot = some reply) :
    s.startSender = { s with sender := { s.sender with inFlight := .reply, wire := trunkReply reply } } := by
  simp only [State.startSender, free, locked, slot]

theorem startSender_notice {n : Notice} (free : s.sender.inFlight = .nothing) (locked : s.link.state = .locked)
    (slot : s.sourceRemote.slot = none) (remote : s.notices.destination = .remoteSource)
    (offer : s.oldestEligible = some n) :
    s.startSender =
      { s with sender := { s.sender with inFlight := .notice n.sequence, wire := trunkNotice n } } := by
  simp only [State.startSender, free, locked, slot, remote, offer]

theorem startSender_stream (free : s.sender.inFlight = .nothing) (locked : s.link.state = .locked)
    (slot : s.sourceRemote.slot = none)
    (noNotice : s.notices.destination ≠ .remoteSource ∨ s.oldestEligible = none) :
    s.startSender = s.startStream := by
  simp only [State.startSender, free, locked, slot]
  split
  · next remote offer => simp [remote, offer] at noNotice
  · rfl

/-- The head is sent again after an interruption, which moves RESENDS (R113). -/
theorem startStream_head {record : StreamRecord} {rest : List StreamRecord} (queue : s.queue = record :: rest)
    (credit : 1 ≤ s.sender.credits) :
    s.startStream =
      { s with
        sender :=
          { s.sender with
            credits := s.sender.credits - 1, inFlight := .stream, headInterrupted := false, wire := record.bytes }
        trunkCounters :=
          { s.trunkCounters with
            resends := if s.sender.headInterrupted then bump s.trunkCounters.resends
              else s.trunkCounters.resends } } := by
  unfold State.startStream
  split
  · next head others queued =>
    obtain ⟨rfl, -⟩ := List.cons.inj (queue.symm.trans queued)
    rw [if_pos credit]
    cases s.sender.headInterrupted <;> rfl
  · next empty => cases queue.symm.trans empty

theorem startStream_waits (waits : s.queue = [] ∨ s.sender.credits = 0) : s.startStream = s := by
  unfold State.startStream
  split
  · next queue => exact if_neg (by simpa [queue] using waits)
  · rfl

end Sender

/-! ## The stall timer -/

theorem stallCondition_iff {s : State} : s.stallCondition = true ↔ s.Stalling := by
  simp [State.stallCondition, State.Stalling, and_assoc]

/-- Following the stall condition moves the stall and its timer alone (R120, R121). -/
theorem followStall_eq (s : State) : ∃ stalled stallTimer,
    s.followStall = { s with sender := { s.sender with stalled, stallTimer } } := by
  unfold State.followStall
  repeat' split
  · exact ⟨_, _, rfl⟩
  · exact ⟨s.sender.stalled, _, rfl⟩
  · exact ⟨_, _, rfl⟩

/-- What the end of an event leaves of the sender's transmission is the sender's choice after the control port's. -/
theorem finish_transmission (s : State) :
    s.finish.sender.inFlight = s.startControlPort.startSender.sender.inFlight ∧
    s.finish.sender.wire = s.startControlPort.startSender.sender.wire ∧
    s.finish.sender.credits = s.startControlPort.startSender.sender.credits ∧
    s.finish.sender.headInterrupted = s.startControlPort.startSender.sender.headInterrupted ∧
    s.finish.trunkCounters = s.startControlPort.startSender.trunkCounters := by
  obtain ⟨stalled, stallTimer, followed⟩ := followStall_eq s.startControlPort.startSender
  rw [State.finish, followed]
  exact ⟨rfl, rfl, rfl, rfl, rfl⟩

end Sys2Proof.Machine
end

section
/-! The statements about the sender at the end of an event (R111 to R113), and about a credit grant (R118, R121, R185).
-/

namespace Sys2Proof.Machine

-- One theorem after another, as in the model's tests.
set_option Elab.async false

/-- Settles O4: the control port's start leaves everything the sender's choice reads, and each clause is one choice. -/
theorem endOfEventStartsTheSender : Obligations.EndOfEventStartsTheSender := by
  intro s
  have port := startControlPort_frame s
  have noOffer (quiet : s.notices.destination ≠ .remoteSource ∨ s.OffersNone) :
      s.startControlPort.notices.destination ≠ .remoteSource ∨ s.startControlPort.oldestEligible = none := by
    rw [port.notices]
    by_cases remote : s.notices.destination = .remoteSource
    · exact .inr ((startControlPort_offer remote).trans (offersNone_iff.1 (quiet.resolve_left (absurd remote))))
    · exact .inl remote
  obtain ⟨inFlight, wire, credits, interrupted, counters⟩ := finish_transmission s
  rw [inFlight, wire, credits, interrupted, counters]
  refine ⟨fun busy => ?_, fun free locked => ⟨fun reply slot => ?_, fun slot => ⟨fun n remote offers => ?_,
    fun quiet => ⟨fun record rest queue credit => ?_, fun waits => ?_⟩⟩⟩⟩
  · rw [startSender_busy (by rwa [port.sender, port.link]), port.sender, port.trunkCounters]
    exact ⟨rfl, rfl, rfl, rfl, rfl⟩
  all_goals rw [← port.sender] at free; rw [← port.link] at locked; rw [← port.sourceRemote] at slot
  · rw [startSender_reply free locked slot, port.sender, port.trunkCounters]
    exact ⟨rfl, rfl, rfl, rfl, rfl⟩
  · rw [startSender_notice free locked slot (by rwa [port.notices])
      ((startControlPort_offer remote).trans (offers_iff.1 offers)), port.sender, port.trunkCounters]
    exact ⟨rfl, rfl, rfl, rfl, rfl⟩
  · rw [startSender_stream free locked slot (noOffer quiet),
      startStream_head (port.queue.trans queue) (by rwa [port.sender]), port.sender, port.trunkCounters]
    exact ⟨rfl, rfl, rfl, rfl, rfl⟩
  · rw [startSender_stream free locked slot (noOffer quiet), startStream_waits (by rwa [port.queue, port.sender]),
      free, port.sender, port.trunkCounters]
    exact ⟨rfl, rfl, rfl, rfl, rfl⟩

/-! ## Credit grants -/

section Grants
variable {s : State} {rest : List Byte}

theorem exec_creditGrant (high : s.resetLine = .high) (locked : s.link.state = .locked) :
    exec (.creditGrant rest) s = .next (s.takeGrant rest).finish :=
  event_possible _ high (by simp [State.receivesReverse, locked])

theorem readGrant_good {count lo hi : Byte} (check : checkBytes (recordCheck [0x30, count]) = [lo, hi])
    (nonzero : count ≠ 0) : readGrant [count, lo, hi] = some count.toNat := if_pos ⟨check, nonzero⟩

theorem readGrant_bad
    (bad : ∀ count lo hi, rest = [count, lo, hi] → checkBytes (recordCheck [0x30, count]) ≠ [lo, hi] ∨ count = 0) :
    readGrant rest = none := by
  unfold readGrant
  split
  · next count lo hi => exact if_neg fun ⟨check, nonzero⟩ => (bad count lo hi rfl).elim (absurd check) (absurd · nonzero)
  · rfl

theorem takeGrant_good {count : Nat} (locked : s.link.state = .locked) (read : readGrant rest = some count) :
    s.takeGrant rest = s.grant count := by
  rw [State.takeGrant, if_pos locked, read]

theorem takeGrant_bad (locked : s.link.state = .locked) (unread : readGrant rest = none) :
    s.takeGrant rest = s.countTrunk fun c => { c with grantErrors := bump c.grantErrors } := by
  rw [State.takeGrant, if_pos locked, unread]

/-- A good grant touches the sender and the trunk counters alone (R118). -/
theorem grant_frame (s : State) (count : Nat) : SameBut s (s.grant count) [.sender, .trunkCounters] := by
  intro piece other
  cases piece <;> first | rfl | exact absurd (by decide) other

/-- The balance rises to at most 1,023, and a stall ends (R118, R121). -/
theorem grant_sender (s : State) (count : Nat) :
    (s.grant count).sender =
      { s.sender with
        credits := if 1023 < s.sender.credits + count then 1023 else s.sender.credits + count
        stalled := false
        stallTimer := .stopped } := by
  have least : min (s.sender.credits + count) Config.maxCredits =
      if 1023 < s.sender.credits + count then 1023 else s.sender.credits + count := by
    simp only [Config.maxCredits]
    split <;> omega
  exact congrArg (fun credits => { s.sender with credits, stalled := false, stallTimer := .stopped }) least

end Grants

/-- Settles O45: a grant that reads as good is granted, and one that does not moves GRANT_ERRORS. -/
theorem creditGrantRaisesTheBalance : Obligations.CreditGrantRaisesTheBalance := by
  intro s high locked
  refine ⟨fun count lo hi check nonzero => ⟨_, exec_creditGrant high locked, ?_⟩,
    fun rest bad => ⟨_, exec_creditGrant high locked, ?_⟩⟩
  · rw [takeGrant_good locked (readGrant_good check nonzero)]
    exact ⟨grant_frame s _, grant_sender s _, rfl⟩
  · rw [takeGrant_bad locked (readGrant_bad bad)]
    exact ⟨countTrunk_frame s _, rfl⟩

end Sys2Proof.Machine
end

section
/-! SUPPORT. The laws of the link with its sender and of the stall, and the offers to the two paths (R110, R112, R119 to
R121, R126, R140, R156). `TransmitKept s t` says of an operation inside an event what the end of the event then turns
into the three laws (`TransmitKept.finished`). Most operations leave the trunk's side of the part (`TrunkLeft`); those
of the link find or leave a quiet sender (`State.SenderQuiet`). -/

namespace Sys2Proof.Machine

-- One theorem after another, as in the model's tests.
set_option Elab.async false

/-! ## What the laws need of an operation -/

/-- The sender as it is outside LOCKED (R119, R121). -/
def State.SenderQuiet (s : State) : Prop :=
  s.sender.credits = 0 ∧ s.sender.inFlight = .nothing ∧ s.sender.stalled = false ∧ s.sender.stallTimer = .stopped ∧
  (s.sender.headInterrupted = true → s.queue ≠ [])

/-- A stall is not both timed and reported, the part of the stall law that holds inside an event too (R120). -/
def State.StallApart (s : State) : Prop := s.sender.stallTimer.isRunning = true → s.sender.stalled = false

/-- Link and sender stay, records are only added, and a reply that waits for the sender goes on waiting. -/
structure TrunkLeft (s t : State) : Prop where
  link : t.link = s.link
  sender : t.sender = s.sender
  queue : s.queue <+: t.queue
  slot : s.sourceRemote.slot.isSome = true → t.sourceRemote.slot.isSome = true

/-- What an operation inside an event keeps. -/
structure TransmitKept (s t : State) : Prop where
  link : s.LinkLaw → t.LinkLaw
  stall : s.StallApart → t.StallApart

/-- What a step keeps: each of the three laws alone. -/
structure StepKept (s t : State) : Prop where
  link : s.LinkLaw → t.LinkLaw
  stall : s.StallLaw → t.StallLaw
  free : s.NothingWaits → t.NothingWaits

section Laws
variable {s t u : State}

theorem StepKept.refl (s : State) : StepKept s s := ⟨id, id, id⟩

theorem TransmitKept.refl (s : State) : TransmitKept s s := ⟨id, id⟩

theorem TransmitKept.trans (h : TransmitKept s t) (k : TransmitKept t u) : TransmitKept s u :=
  ⟨k.link ∘ h.link, k.stall ∘ h.stall⟩

theorem State.StallLaw.apart (law : s.StallLaw) : s.StallApart := by
  obtain ⟨under, without⟩ := law
  intro running
  by_cases stalling : s.Stalling
  · exact (under stalling).1 running
  · exact (without stalling).2

theorem State.SenderLaw.quiet (law : s.SenderLaw) (away : s.link.state ≠ .locked) : s.SenderQuiet := by
  obtain ⟨-, outside, -, -, head⟩ := law
  obtain ⟨credits, free, stalled, timer⟩ := outside away
  exact ⟨credits, free, stalled, timer, head⟩

/-- A quiet sender meets its law in every link state. -/
theorem State.SenderQuiet.law (quiet : s.SenderQuiet) : s.SenderLaw := by
  obtain ⟨credits, free, stalled, timer, head⟩ := quiet
  exact ⟨by omega, fun _ => ⟨credits, free, stalled, timer⟩, by simp [free], by simp [free], head⟩

/-! ### The trunk's side is left -/

theorem TrunkLeft.of_same (link : t.link = s.link) (sender : t.sender = s.sender) (queue : t.queue = s.queue)
    (slot : t.sourceRemote.slot = s.sourceRemote.slot) : TrunkLeft s t :=
  ⟨link, sender, queue ▸ List.prefix_rfl, fun some => slot ▸ some⟩

theorem TrunkLeft.refl (s : State) : TrunkLeft s s := .of_same rfl rfl rfl rfl

theorem TrunkLeft.trans (h : TrunkLeft s t) (k : TrunkLeft t u) : TrunkLeft s u :=
  ⟨k.link.trans h.link, k.sender.trans h.sender, h.queue.trans k.queue, k.slot ∘ h.slot⟩

/-- An operation on the ingress side; where it queues records the caller shows that it only adds them. -/
theorem TrunkLeft.of_frame {changed : List Piece} (h : SameBut s t changed)
    (queue : .queue ∈ changed → s.queue <+: t.queue := by simp)
    (link : Piece.link ∉ changed := by decide) (sender : Piece.sender ∉ changed := by decide)
    (remote : Piece.sourceRemote ∉ changed := by decide) : TrunkLeft s t where
  link := h.link link
  sender := h.sender sender
  queue := by
    by_cases hc : Piece.queue ∈ changed
    · exact queue hc
    · exact h.queue hc ▸ List.prefix_rfl
  slot some := h.sourceRemote remote ▸ some

theorem TrunkLeft.modifySource (s : State) (src : Source) {f : SourceState → SourceState}
    (slot : ∀ x, x.slot.isSome = true → (f x).slot.isSome = true) : TrunkLeft s (s.modifySource src f) := by
  cases src
  · exact .of_same rfl rfl rfl rfl
  · exact ⟨rfl, rfl, List.prefix_rfl, slot _⟩

theorem TrunkLeft.countSource (s : State) (src : Source) (f : SourceCounters → SourceCounters) :
    TrunkLeft s (s.countSource src f) := .modifySource s src fun _ => id

theorem TrunkLeft.countTrunk (s : State) (f : TrunkCounters → TrunkCounters) : TrunkLeft s (s.countTrunk f) :=
  .of_same rfl rfl rfl rfl

theorem TrunkLeft.raise (s : State) (info : NoticeInfo) : TrunkLeft s (s.raise info) := .of_same rfl rfl rfl rfl

theorem TrunkLeft.modifyRoute (s : State) (r : Fin 64) (f : Route → Route) : TrunkLeft s (s.modifyRoute r f) :=
  .of_same rfl rfl rfl rfl

theorem TrunkLeft.kept (left : TrunkLeft s t) : TransmitKept s t where
  link law := by
    obtain ⟨link, credits, outside, stream, reply, head⟩ := law
    have queue : s.queue ≠ [] → t.queue ≠ [] := fun some empty => some (List.prefix_nil.1 (empty ▸ left.queue))
    refine ⟨left.link ▸ link, ?_⟩
    rw [State.SenderLaw, left.sender, left.link]
    exact ⟨credits, outside, fun h => (stream h).imp_left queue, left.slot ∘ reply, queue ∘ head⟩
  stall apart := by rwa [State.StallApart, left.sender]

/-! ### The transmission ends or is cut -/

/-- Nothing is in flight any more; an interrupted head is still there. -/
theorem TransmitKept.free (link : t.link = s.link)
    (sender : t.sender = { s.sender with inFlight := .nothing, wire := [] })
    (head : s.SenderLaw → s.sender.headInterrupted = true → t.queue ≠ []) : TransmitKept s t where
  link law := by
    obtain ⟨linkLaw, law⟩ := law
    refine ⟨link ▸ linkLaw, ?_⟩
    obtain ⟨credits, outside, -⟩ := id law
    rw [State.SenderLaw, sender, link]
    refine ⟨credits, fun away => ?_, nofun, nofun, head law⟩
    obtain ⟨none, -, ended⟩ := outside away
    exact ⟨none, rfl, ended⟩
  stall apart := by rwa [State.StallApart, sender]

/-! ### The link moves -/

/-- The link moves while the sender is quiet. -/
theorem TransmitKept.moveLink (frame : SameBut s t [.link]) (law : s.link.Law → t.link.Law)
    (quiet : s.SenderLaw → s.SenderQuiet) : TransmitKept s t where
  link before := by
    obtain ⟨link, sender⟩ := before
    have after : t.SenderQuiet := by
      rw [State.SenderQuiet, frame.sender, frame.queue]
      exact quiet sender
    exact ⟨law link, after.law⟩
  stall apart := by rwa [State.StallApart, frame.sender]

/-- A link that is not LOCKED and not aligned, with the timer of its state (R126). -/
theorem Link.Law.unlocked {link : Link} (law : link.Law) {state : LinkState} {trainTimer retryTimer : Timer}
    (train : trainTimer.isRunning = true ↔ state = .training) (retry : retryTimer.isRunning = true ↔ state = .down)
    (away : state ≠ .locked) : { link with state, reverseAligned := false, trainTimer, retryTimer }.Law := by
  obtain ⟨-, -, low, high, -, -⟩ := law
  exact ⟨train, retry, low, high, nofun, fun locked => absurd locked away⟩

theorem enterTraining_law (law : s.link.Law) : s.enterTraining.link.Law :=
  law.unlocked (by simp [Timer.isRunning]) (by simp [Timer.isRunning]) (by simp)

theorem enterDown_law (law : s.link.Law) : s.enterDown.link.Law :=
  law.unlocked (by simp [Timer.isRunning]) (by simp [Timer.isRunning]) (by simp)

theorem enterHalted_law (law : s.link.Law) : s.enterHalted.link.Law :=
  law.unlocked (by simp [Timer.isRunning]) (by simp [Timer.isRunning]) (by simp)

/-- In TRAINING alignment is seen and lost (R130). -/
theorem setAligned_law {link : Link} (law : link.Law) (training : link.state = .training) (aligned : Bool) :
    { link with reverseAligned := aligned }.Law := by
  obtain ⟨train, retry, low, high, -, -⟩ := law
  exact ⟨train, retry, low, high, fun _ => .inl training, by simp [training]⟩

/-- The lock of an aligned link in TRAINING (R131). -/
theorem lock_law {link : Link} (law : link.Law) (training : link.state = .training)
    (aligned : link.reverseAligned = true) : { link with state := .locked, trainTimer := .stopped }.Law := by
  obtain ⟨-, retry, low, high, -, -⟩ := law
  have stopped : link.retryTimer.isRunning = false := by simpa [training] using retry
  exact ⟨by simp [Timer.isRunning], by simp [stopped], low, high, fun _ => .inr rfl, fun _ => aligned⟩

theorem linkReset_law {epoch : Nat} (low : 1 ≤ epoch) (high : epoch ≤ 65535) (autoTrain : Bool) :
    (Link.reset epoch autoTrain).Law := by
  cases autoTrain
  all_goals
    exact ⟨by simp [Link.reset, Timer.isRunning], by simp [Link.reset, Timer.isRunning], low, high, nofun, nofun⟩

/-- The lock is dropped with the head kept as interrupted (R115, R119, R121). -/
theorem dropLock_quiet (law : s.SenderLaw) : s.dropLock.SenderQuiet := by
  obtain ⟨-, -, stream, -, head⟩ := law
  refine ⟨rfl, rfl, rfl, rfl, fun interrupted => ?_⟩
  rcases Bool.or_eq_true_iff.1 (show (s.sender.headInterrupted || s.sender.inFlight == .stream) = true from interrupted)
    with before | now
  · exact head before
  · exact (stream (by simpa using now)).1

theorem TransmitKept.dropLock (s : State) : TransmitKept s s.dropLock where
  link := fun ⟨link, sender⟩ => ⟨link, (dropLock_quiet sender).law⟩
  stall _ := nofun

/-- After the lock is dropped the link goes where it goes. -/
theorem TransmitKept.leaveLock (frame : SameBut s.dropLock t [.link]) (law : s.link.Law → t.link.Law) :
    TransmitKept s t where
  link before := by
    obtain ⟨-, sender⟩ := id before
    have quiet := dropLock_quiet sender
    exact (TransmitKept.moveLink frame law fun _ => quiet).link ((TransmitKept.dropLock s).link before)
  stall _ := by rw [State.StallApart, frame.sender]; nofun

end Laws

/-! ## The end of an event -/

section Finish
variable {s : State}

/-- The sender is not to choose, or it starts the reply, a notice or the head, or there is nothing to start (R111 to
R113). -/
theorem startSender_cases (s : State) :
    ((s.sender.inFlight ≠ .nothing ∨ s.link.state ≠ .locked) ∧ s.startSender = s) ∨
    s.sender.inFlight = .nothing ∧ s.link.state = .locked ∧
      ((∃ reply, s.sourceRemote.slot = some reply ∧
        s.startSender = { s with sender := { s.sender with inFlight := .reply, wire := trunkReply reply } }) ∨
      (∃ n, s.notices.destination = .remoteSource ∧ s.startSender =
        { s with sender := { s.sender with inFlight := .notice n.sequence, wire := trunkNotice n } }) ∨
      (∃ record rest, s.queue = record :: rest ∧ s.startSender =
        { s with
          sender :=
            { s.sender with
              credits := s.sender.credits - 1, inFlight := .stream, headInterrupted := false, wire := record.bytes }
          trunkCounters :=
            { s.trunkCounters with
              resends := if s.sender.headInterrupted then bump s.trunkCounters.resends
                else s.trunkCounters.resends } }) ∨
      (s.startSender = s ∧ s.sourceRemote.slot = none ∧
        (s.notices.destination = .remoteSource → s.oldestEligible = none) ∧
        (s.queue = [] ∨ s.sender.credits = 0))) := by
  by_cases busy : s.sender.inFlight ≠ .nothing ∨ s.link.state ≠ .locked
  · exact .inl ⟨busy, startSender_busy busy⟩
  simp only [not_or, not_not] at busy
  obtain ⟨free, locked⟩ := busy
  refine .inr ⟨free, locked, ?_⟩
  rcases slot : s.sourceRemote.slot with _ | reply
  · by_cases quiet : s.notices.destination ≠ .remoteSource ∨ s.oldestEligible = none
    · rw [startSender_stream free locked slot quiet]
      by_cases waits : s.queue = [] ∨ s.sender.credits = 0
      · exact .inr (.inr (.inr
          ⟨startStream_waits waits, rfl, fun remote => quiet.resolve_left (absurd remote), waits⟩))
      · rw [not_or] at waits
        obtain ⟨record, rest, queue⟩ := List.exists_cons_of_ne_nil waits.1
        exact .inr (.inr (.inl ⟨record, rest, queue, startStream_head queue (by omega)⟩))
    · simp only [not_or, not_not] at quiet
      obtain ⟨remote, offered⟩ := quiet
      obtain ⟨n, offer⟩ := Option.ne_none_iff_exists'.1 offered
      exact .inr (.inl ⟨n, remote, startSender_notice free locked slot remote offer⟩)
  · exact .inl ⟨reply, rfl, startSender_reply free locked slot⟩

/-- The sender starts a reply that is there, or a notice. -/
theorem TransmitKept.send {inFlight : InFlight} {wire : List Byte} (locked : s.link.state = .locked)
    (noStream : inFlight ≠ .stream) (reply : inFlight = .reply → s.sourceRemote.slot.isSome = true) :
    TransmitKept s { s with sender := { s.sender with inFlight, wire } } where
  link law := by
    obtain ⟨link, credits, -, -, -, head⟩ := law
    exact ⟨link, credits, fun away => absurd locked away, fun h => absurd h noStream, reply, head⟩
  stall := id

/-- What the sender starts is there to be sent, and a head it starts is no longer marked interrupted (R113). -/
theorem TransmitKept.startSender (s : State) : TransmitKept s s.startSender := by
  rcases startSender_cases s with ⟨-, same⟩ |
    ⟨-, locked, ⟨reply, slot, sent⟩ | ⟨n, -, sent⟩ | ⟨record, rest, queue, sent⟩ | ⟨same, -⟩⟩
  · rw [same]
    exact .refl s
  · rw [sent]
    exact .send locked nofun fun _ => by simp [slot]
  · rw [sent]
    exact .send locked nofun nofun
  · rw [sent]
    refine ⟨fun ⟨link, credits, _⟩ => ?_, id⟩
    exact ⟨link, (Nat.sub_le ..).trans credits, fun away => absurd locked away,
      fun _ => ⟨by simp [queue], rfl⟩, nofun, nofun⟩
  · rw [same]
    exact .refl s

/-- Under the stall condition the timer runs unless the stall is timed or reported; without it the stall ends. -/
theorem followStall_cases (s : State) :
    (s.Stalling ∧ (s.sender.stalled = true ∨ s.sender.stallTimer.isRunning = true) ∧ s.followStall = s) ∨
    (s.Stalling ∧ s.sender.stalled = false ∧ s.followStall =
      { s with sender := { s.sender with stallTimer := .running Config.creditWaitLimit } }) ∨
    (¬ s.Stalling ∧ s.followStall = s.endStall) := by
  unfold State.followStall
  split
  · next holds =>
    have stalling := stallCondition_iff.1 holds
    split
    · next goes => exact .inl ⟨stalling, by simpa using goes, rfl⟩
    · next fresh =>
      obtain ⟨unreported, -⟩ := Bool.or_eq_false_iff.1 (Bool.eq_false_iff.2 fresh)
      exact .inr (.inl ⟨stalling, unreported, rfl⟩)
  · next ceases => exact .inr (.inr ⟨fun stalling => ceases (stallCondition_iff.2 stalling), rfl⟩)

/-- The stall and its timer move, and outside LOCKED they end. -/
theorem followStall_link (law : s.LinkLaw) : s.followStall.LinkLaw := by
  obtain ⟨link, credits, outside, stream, reply, head⟩ := id law
  rcases followStall_cases s with ⟨-, -, same⟩ | ⟨⟨-, locked, -⟩, -, starts⟩ | ⟨-, ends⟩
  · rwa [same]
  · rw [starts]
    exact ⟨link, credits, fun away => absurd locked away, stream, reply, head⟩
  · rw [ends]
    refine ⟨link, credits, fun away => ?_, stream, reply, head⟩
    obtain ⟨none, free, -⟩ := outside away
    exact ⟨none, free, rfl, rfl⟩

theorem followStall_law (apart : s.StallApart) : s.followStall.StallLaw := by
  rcases followStall_cases s with ⟨stalling, goes, same⟩ | ⟨stalling, fresh, starts⟩ | ⟨ceased, ends⟩
  · rw [same]
    exact ⟨fun _ => ⟨apart, fun fresh => goes.resolve_left (by simp [fresh])⟩, fun none => absurd stalling none⟩
  · rw [starts]
    exact ⟨fun _ => ⟨fun _ => fresh, fun _ => rfl⟩, fun none => absurd stalling none⟩
  · rw [ends]
    exact ⟨fun stalling => absurd stalling ceased, fun _ => ⟨rfl, rfl⟩⟩

/-! ### Nothing waits -/

/-- A control port that stays free had nothing to start (R156). -/
theorem startControlPort_idle (idle : s.startControlPort.transmitter.sending = .nothing) :
    s.startControlPort = s ∧ s.sourceLocal.slot = none ∧
    (s.notices.destination = .localSource → s.oldestEligible = none) := by
  rcases sending : s.transmitter.sending with _ | _ | _
  · rcases slot : s.sourceLocal.slot with _ | reply
    · rcases destination : s.notices.destination with _ | _
      · rcases offer : s.oldestEligible with _ | n
        · simp [State.startControlPort, sending, slot, destination, offer]
        · simp [State.startControlPort, sending, slot, destination, offer] at idle
      · simp [State.startControlPort, sending, slot, destination]
    · simp [State.startControlPort, sending, slot] at idle
  all_goals simp [State.startControlPort, sending] at idle

/-- A sender of a LOCKED link that stays free had nothing to start (R111 to R113). -/
theorem startSender_idle (locked : s.link.state = .locked) (idle : s.startSender.sender.inFlight = .nothing) :
    s.startSender = s ∧ s.sourceRemote.slot = none ∧
    (s.notices.destination = .remoteSource → s.oldestEligible = none) ∧ (s.queue = [] ∨ s.sender.credits = 0) := by
  rcases startSender_cases s with ⟨busy, same⟩ |
    ⟨-, -, ⟨reply, -, sent⟩ | ⟨n, -, sent⟩ | ⟨record, rest, -, sent⟩ | nothing⟩
  · rw [same] at idle
    exact busy.elim (absurd idle) (absurd locked)
  · rw [sent] at idle
    cases idle
  · rw [sent] at idle
    cases idle
  · rw [sent] at idle
    cases idle
  · exact nothing

/-- Under destination LOCAL the sender starts no notice, so the control port is offered what it was (R111). -/
theorem startSender_offer (destination : s.notices.destination = .localSource) :
    s.startSender.oldestEligible = s.oldestEligible := by
  refine oldestEligible_congr (startSender_frame s).notices fun sequence => ?_
  rcases startSender_cases s with ⟨-, same⟩ |
    ⟨free, -, ⟨reply, -, sent⟩ | ⟨n, remote, -⟩ | ⟨record, rest, -, sent⟩ | ⟨same, -⟩⟩
  · rw [same]
  · rw [sent, State.inTransmission, State.inTransmission, free]
    rfl
  · cases destination.symm.trans remote
  · rw [sent, State.inTransmission, State.inTransmission, free]
    rfl
  · rw [same]

/-- What the end of an event offers is what it leaves offered after both starts. -/
theorem finish_offer (s : State) : s.finish.oldestEligible = s.startControlPort.startSender.oldestEligible := by
  obtain ⟨stalled, stallTimer, followed⟩ := followStall_eq s.startControlPort.startSender
  rw [State.finish, followed]
  rfl

/-- After every event a path that is free has nothing it could send, whatever came before. -/
theorem finish_nothingWaits (s : State) : s.finish.NothingWaits := by
  have frame := finish_frame s
  have port := startControlPort_frame s
  obtain ⟨inFlight, -, credits, -, -⟩ := finish_transmission s
  have transmitter : s.finish.transmitter = s.startControlPort.transmitter :=
    (followStall_frame _).transmitter.trans (startSender_frame _).transmitter
  refine fun _ => ⟨fun idle => ?_, fun locked idle => ?_⟩
  · obtain ⟨same, slot, offer⟩ := startControlPort_idle (transmitter ▸ idle)
    rw [frame.sourceLocal, frame.notices, offersNone_iff, finish_offer, same]
    exact ⟨slot, fun destination => (startSender_offer destination).trans (offer destination)⟩
  · rw [frame.link, ← port.link] at locked
    obtain ⟨same, slot, offer, waits⟩ := startSender_idle locked (inFlight ▸ idle)
    rw [frame.sourceRemote, frame.notices, frame.queue, offersNone_iff, finish_offer, credits, same,
      ← port.sourceRemote, ← port.notices, ← port.queue]
    exact ⟨slot, offer, waits⟩

/-- The end of an event makes the three laws of what its effect keeps. -/
theorem TransmitKept.finished {effect : State} (h : TransmitKept s effect) : StepKept s effect.finish := by
  have port : TransmitKept effect effect.startControlPort := (TrunkLeft.of_frame (startControlPort_frame effect)).kept
  have started := (h.trans port).trans (.startSender _)
  exact ⟨fun law => followStall_link (started.link law), fun law => followStall_law (started.stall law.apart),
    fun _ => finish_nothingWaits effect⟩

end Finish

end Sys2Proof.Machine
end

section
/-! The statement about the laws of link, sender and stall and about the paths (R110, R112, R119 to R121, R126, R140,
R156): the commands, the events of the trunk, part resets, then all rows. -/

namespace Sys2Proof.Machine

-- One theorem after another, as in the model's tests.
set_option Elab.async false

/-! ## Commands -/

/-- A command leaves the trunk's side of the part. -/
def LeavesTrunk (run : Source → List Byte → State → Execution) : Prop :=
  ∀ src args s, TrunkLeft s (run src args s).state

/-- A command keeps what an operation inside an event keeps. -/
def KeepsTransmit (run : Source → List Byte → State → Execution) : Prop :=
  ∀ src args s, TransmitKept s (run src args s).state

/-- The commands that touch neither link nor sender nor queue nor output slots. -/
def commandsBesideTheTrunk : List (Source → List Byte → State → Execution) :=
  [unknownCommand, identify, claim, drop, leaseTime, resetPart, portStatus, routeRead, routeWrite, routeEnable,
    tableScan, holdpointSet, holdpointClear, poolStatus, trunkStatus, noticeAck, noticeReplay, noticeMask, noticeRoute]

theorem beside_leaves_trunk {run : Source → List Byte → State → Execution} (h : run ∈ commandsBesideTheTrunk) :
    LeavesTrunk run := by
  intro src args s
  simp only [commandsBesideTheTrunk, List.mem_cons, List.not_mem_nil, or_false] at h
  rcases h with rfl | rfl | rfl | rfl | rfl | rfl | rfl | rfl | rfl | rfl | rfl | rfl | rfl | rfl | rfl | rfl | rfl |
    rfl | rfl
  all_goals
    simp only [unknownCommand, identify, claim, drop, leaseTime, resetPart, portStatus, routeRead, routeWrite,
      writeRoute, routeEnable, tableScan, holdpointSet, holdpointClear, poolStatus, trunkStatus, noticeAck,
      noticeReplay, noticeMask, noticeRoute]
    repeat' split
    all_goals exact .of_same rfl rfl rfl rfl

theorem countersRead_leaves_trunk : LeavesTrunk countersRead := fun src args s => by
  have clear (set : CounterScope) : TrunkLeft s (s.clearSet set) := by
    unfold State.clearSet
    split
    · exact .modifyRoute s _ _
    · exact .of_frame (countPort_frame s _ _)
    · exact .countTrunk s _
    · exact .countSource s _ _
  unfold countersRead
  repeat' split
  all_goals first
    | exact .refl s
    | exact clear _

/-- HOLD, RELEASE and STEP do what their gate move does (R88). -/
theorem gateCommand_leaves_trunk {move : State → Fin 64 → Option State}
    (h : ∀ s r t, move s r = some t → TrunkLeft s t) : LeavesTrunk (gateCommand move) := fun src args s => by
  unfold gateCommand
  dsimp only
  repeat' split
  all_goals first
    | exact .refl s
    | exact h s _ _ ‹_›

section Gates
variable {s t : State} {r : Fin 64}

theorem holdGate_leaves_trunk (h : holdGate s r = some t) : TrunkLeft s t := by
  unfold holdGate at h
  repeat' split at h
  all_goals first
    | exact Option.some.inj h ▸ .refl s
    | exact Option.some.inj h ▸ .modifyRoute s r _
    | exact Option.some.inj h ▸ .of_frame (shutGate_frame s r _ _)
    | cases h

theorem releaseGate_leaves_trunk (h : releaseGate s r = some t) : TrunkLeft s t := by
  unfold releaseGate at h
  split at h
  · cases h
  · exact Option.some.inj h ▸ .modifyRoute s r _

theorem stepGate_leaves_trunk (h : stepGate s r = some t) : TrunkLeft s t := by
  unfold stepGate at h
  split at h
  · exact Option.some.inj h ▸ .modifyRoute s r _
  · cases h

end Gates

theorem setPortMode_leaves_trunk (s : State) (p : Fin 4) (enable : Bool) (lanes : Lanes) :
    TrunkLeft s (s.setPortMode p enable lanes) := by
  by_cases off : (s.port p).state = .off
  · obtain ⟨frame, -⟩ := setPortMode_off (enable := enable) (lanes := lanes) off
    exact .of_frame frame
  · cases enable
    · obtain ⟨frame, -, -, visited⟩ := setPortMode_disabled (lanes := lanes) off
      exact .of_frame frame (fun _ => visited.queue)
    · rw [setPortMode_enabled off]
      exact .refl s

theorem portSet_leaves_trunk : LeavesTrunk portSet := fun src args s => by
  unfold portSet
  repeat' split
  all_goals first
    | exact .refl s
    | exact setPortMode_leaves_trunk s _ _ _

theorem routeDisable_leaves_trunk : LeavesTrunk routeDisable := fun src args s => by
  have disable (r : Fin 64) : TrunkLeft s (s.disableRoute r) := by
    obtain ⟨frame, -, -, -, queue, -⟩ := disableRoute_spec s r
    exact .of_frame frame fun _ => ⟨_, queue.symm⟩
  unfold routeDisable
  dsimp only
  repeat' split
  all_goals first
    | exact .refl s
    | exact disable _

/-- The lock is dropped in every link state (R119, R136). -/
theorem haltLink_keeps_transmit (s : State) : TransmitKept s s.haltLink := by
  have halted : TransmitKept s s.dropLock.enterHalted := .leaveLock (enterHalted_frame _) enterHalted_law
  unfold State.haltLink
  dsimp only
  split
  · exact halted
  · exact halted.trans (TrunkLeft.countTrunk _ _).kept

theorem trunkHalt_keeps_transmit : KeepsTransmit trunkHalt := fun src args s => by
  unfold trunkHalt
  repeat' split
  · exact haltLink_keeps_transmit s
  all_goals exact .refl s

/-- TRUNK_START finds the link HALTED, so the sender is quiet (R137). -/
theorem trunkStart_keeps_transmit : KeepsTransmit trunkStart := fun src args s => by
  unfold trunkStart
  repeat' split
  · next halted => exact .moveLink (enterTraining_frame s) enterTraining_law (·.quiet (by simp [halted]))
  all_goals exact .refl s

theorem trunkRetrain_keeps_transmit : KeepsTransmit trunkRetrain := fun src args s => by
  have retrained : TransmitKept s s.retrainLink :=
    (TransmitKept.leaveLock (enterTraining_frame _) enterTraining_law).trans (TrunkLeft.countTrunk _ _).kept
  unfold trunkRetrain
  repeat' split
  all_goals first
    | exact retrained
    | exact .refl s

/-! ## Records received -/

section Received
variable (s : State) (src : Source)

/-- A replay fills an output slot and nothing empties one (R151). -/
theorem deliver_leaves_trunk (record : CommandRecord) : TrunkLeft s (s.deliver src record) := by
  unfold State.deliver
  dsimp only
  repeat' split
  · exact .countSource s src _
  · exact (TrunkLeft.modifySource s src fun _ _ => rfl).trans (.countSource _ src _)
  · exact .countSource s src _
  · exact .modifySource s src fun _ => id

theorem judgeRecord_leaves_trunk (covered check : List Byte) : TrunkLeft s (s.judgeRecord src covered check) := by
  unfold State.judgeRecord State.takeBody
  repeat' split
  · exact (TrunkLeft.countSource s src _).trans (deliver_leaves_trunk _ src _)
  · exact .countSource s src _
  · exact .countSource s src _

theorem character_leaves_trunk (character : Byte) (stopBit : Bool) : TrunkLeft s (s.character character stopBit) := by
  have complete (record : List Byte) (length : Nat) : TrunkLeft s (s.completeRecord record length) := by
    refine TrunkLeft.trans (t := s.endReception) (.of_same rfl rfl rfl rfl) ?_
    exact judgeRecord_leaves_trunk _ _ _ _
  unfold State.character State.idleCharacter State.recordCharacter
  dsimp only
  repeat' split
  all_goals first
    | exact .of_same rfl rfl rfl rfl
    | exact complete _ _

theorem takeRemote_leaves_trunk (rest : List Byte) : TrunkLeft s (s.takeRemote rest) := by
  unfold State.takeRemote
  dsimp only
  repeat' split
  · exact judgeRecord_leaves_trunk s _ _ _
  · exact .countSource s _ _
  · exact .countSource s _ _

/-- The reply of an execution goes into its output slot (R154). -/
theorem execute_keeps_transmit {run : Source → List Byte → State → Execution} (keeps : KeepsTransmit run)
    (record : CommandRecord) : TransmitKept s (s.execute src record run) := by
  have taken : TrunkLeft s (s.takeRecord src) :=
    (TrunkLeft.modifySource s src (f := fun x => { x with inbox := none }) fun _ => id).trans
      (.of_same rfl rfl rfl rfl)
  refine (taken.kept.trans (keeps src record.arguments _)).trans (TrunkLeft.kept ?_)
  exact ((TrunkLeft.modifySource _ src fun _ _ => rfl).trans (.countSource _ src _)).trans
    (.of_frame (restartLease_frame _ src))

end Received

/-! ## The events of the trunk -/

section Trunk
variable (s : State)

theorem grant_keeps_transmit (locked : s.link.state = .locked) (count : Nat) : TransmitKept s (s.grant count) where
  link law := by
    obtain ⟨link, -, -, stream, reply, head⟩ := law
    exact ⟨link, Nat.min_le_right .., fun away => absurd locked away, stream, reply, head⟩
  stall _ := nofun

theorem takeGrant_keeps_transmit (rest : List Byte) : TransmitKept s (s.takeGrant rest) := by
  unfold State.takeGrant
  split
  · next locked =>
    split
    · exact grant_keeps_transmit s locked _
    · exact (TrunkLeft.countTrunk s _).kept
  · exact (TrunkLeft.countTrunk s _).kept

/-- An acknowledgement locks an aligned link in TRAINING, and changes nothing else but RX_DISCARDED (R130, R131). -/
theorem acknowledge_keeps_transmit (rest : List Byte) : TransmitKept s (s.acknowledge rest) := by
  have locks (training : s.link.state = .training) (aligned : s.link.reverseAligned = true) :
      TransmitKept s { s with link := { s.link with state := .locked, trainTimer := .stopped } } := by
    refine .moveLink (fun piece other => ?_) (fun law => lock_law law training aligned) (·.quiet (by simp [training]))
    cases piece <;> first | rfl | exact absurd (by decide) other
  unfold State.acknowledge
  split
  · next training =>
    split
    · split
      · next aligned => exact (locks training aligned).trans ((TrunkLeft.countTrunk _ _).trans (.raise _ _)).kept
      · exact .refl s
    · exact (TrunkLeft.countTrunk s _).kept
  · exact (TrunkLeft.countTrunk s _).kept

theorem setAligned_keeps_transmit (training : s.link.state = .training) (aligned : Bool) :
    TransmitKept s { s with link := { s.link with reverseAligned := aligned } } := by
  refine .moveLink (fun piece other => ?_) (fun law => setAligned_law law training aligned)
    (·.quiet (by simp [training]))
  cases piece <;> first | rfl | exact absurd (by decide) other

theorem loseSignal_keeps_transmit : TransmitKept s s.loseSignal :=
  (TransmitKept.leaveLock (enterDown_frame _) enterDown_law).trans ((TrunkLeft.countTrunk _ _).trans (.raise _ _)).kept

/-- The train timer runs in TRAINING alone (R132). -/
theorem trainExpiry_keeps_transmit (runs : s.link.trainTimer.isRunning = true) : TransmitKept s s.enterDown where
  link law := by
    obtain ⟨⟨train, -⟩, -⟩ := id law
    have away : s.link.state ≠ .locked := by simp [train.1 runs]
    exact (TransmitKept.moveLink (enterDown_frame s) enterDown_law (·.quiet away)).link law
  stall := id

/-- The retry timer runs in DOWN alone (R133). -/
theorem retryExpiry_keeps_transmit (runs : s.link.retryTimer.isRunning = true) : TransmitKept s s.enterTraining where
  link law := by
    obtain ⟨⟨-, retry, -⟩, -⟩ := id law
    have away : s.link.state ≠ .locked := by simp [retry.1 runs]
    exact (TransmitKept.moveLink (enterTraining_frame s) enterTraining_law (·.quiet away)).link law
  stall := id

/-- A stall is timed in LOCKED alone (R120). -/
theorem expireStall_keeps_transmit (runs : s.sender.stallTimer.isRunning = true) : TransmitKept s s.expireStall where
  link law := by
    obtain ⟨link, credits, outside, stream, reply, head⟩ := law
    refine ⟨link, credits, fun away => ?_, stream, reply, head⟩
    obtain ⟨-, -, -, stopped⟩ := outside away
    rw [stopped] at runs
    cases runs
  stall _ := nofun

end Trunk

/-! ## Part resets -/

section Reset
variable {s : State}

theorem nextEpoch_range (law : s.link.Law) : 1 ≤ s.nextEpoch ∧ s.nextEpoch ≤ 65535 := by
  obtain ⟨-, -, low, high, -⟩ := law
  simp only [State.nextEpoch, next16, Config.max16]
  split <;> omega

/-- Link and sender are at their reset values, with an epoch in range (R110, R126, R127). -/
theorem partReset_keeps_transmit {cause : ResetCause} {epoch : Nat} {straps : Straps}
    (range : s.link.Law → 1 ≤ epoch ∧ epoch ≤ 65535) : TransmitKept s (s.partReset cause epoch straps) where
  link law := by
    obtain ⟨link, -⟩ := law
    obtain ⟨low, high⟩ := range link
    exact ⟨linkReset_law low high _, State.SenderQuiet.law ⟨rfl, rfl, rfl, rfl, nofun⟩⟩
  stall _ := nofun

theorem resetAfterReply_keeps_transmit (s : State) (src : Source) (straps : Straps) :
    TransmitKept s (s.resetAfterReply src straps) := by
  unfold State.resetAfterReply
  repeat' split
  · exact partReset_keeps_transmit nextEpoch_range
  · exact .refl s
  · exact .refl s

theorem expireGrace_keeps_transmit (s : State) (straps : Straps) : TransmitKept s (s.expireGrace straps) := by
  unfold State.expireGrace
  split
  · exact partReset_keeps_transmit nextEpoch_range
  · exact .refl s

theorem completePort_keeps_transmit (s : State) (straps : Straps) : TransmitKept s (s.completePort straps) := by
  unfold State.completePort
  dsimp only
  split
  · exact .refl s
  · refine TransmitKept.trans (TrunkLeft.kept ?_) (resetAfterReply_keeps_transmit _ _ straps)
    exact .of_same rfl rfl rfl rfl
  · refine TrunkLeft.kept ?_
    exact .of_same rfl rfl rfl rfl

/-- A head that was being sent is not marked interrupted, so the law asks for no record after it (R114, R140). -/
theorem completeTrunk_keeps_transmit (s : State) (straps : Straps) : TransmitKept s (s.completeTrunk straps) := by
  rcases sending : s.sender.inFlight with _ | _ | _ | sequence
  · simp only [State.completeTrunk, sending]
    exact .refl s
  · rw [completeTrunk_stream sending]
    have sent : s.senderFree.recordSent.link = s.link ∧ s.senderFree.recordSent.sender = s.senderFree.sender := by
      unfold State.recordSent
      split <;> exact ⟨rfl, rfl⟩
    obtain ⟨link, sender⟩ := sent
    refine .free link sender fun law interrupted => ?_
    obtain ⟨-, -, stream, -⟩ := law
    exact absurd interrupted (by simp [(stream sending).2])
  · simp only [State.completeTrunk, sending]
    refine TransmitKept.trans ?_ (resetAfterReply_keeps_transmit _ _ straps)
    exact .free rfl rfl fun ⟨_, _, _, _, head⟩ => head
  · rw [completeTrunk_notice sending]
    exact .free rfl rfl fun ⟨_, _, _, _, head⟩ => head

/-- A part that RESET_N holds drives neither path, and its queue and its stall stay (R163). -/
theorem holdInReset_keeps (s : State) {line : ResetLine} (low : line ≠ .high) : StepKept s (s.holdInReset line) where
  link := (TransmitKept.free (s := s) (t := s.holdInReset line) rfl rfl fun ⟨_, _, _, _, head⟩ => head).link
  stall := id
  free _ high := absurd high low

end Reset

/-! ## Rows -/

section Rows
variable {s t effect : State} {possible : Bool} {run : Source → List Byte → State → Execution}

theorem event_transmit (h : event s possible effect = .next t) (keeps : possible = true → TransmitKept s effect) :
    StepKept s t := by
  rcases event_cases h with rfl | ⟨possible, rfl⟩
  · exact .refl t
  · exact (keeps possible).finished

theorem event_left (h : event s possible effect = .next t) (left : TrunkLeft s effect) : StepKept s t :=
  event_transmit h fun _ => left.kept

theorem serve_transmit (codes : Byte → Bool) (keeps : KeepsTransmit run) (h : s.serve codes run = .next t) :
    StepKept s t := by
  rcases serve_cases h with rfl | ⟨src, record, rfl⟩
  · exact .refl t
  · exact (execute_keeps_transmit s src keeps record).finished

theorem serve_left (codes : Byte → Bool) (left : LeavesTrunk run) (h : s.serve codes run = .next t) : StepKept s t :=
  serve_transmit codes (fun src args s => (left src args s).kept) h

theorem serve_beside_trunk (codes : Byte → Bool) (h : s.serve codes run = .next t)
    (beside : run ∈ commandsBesideTheTrunk := by simp [commandsBesideTheTrunk]) : StepKept s t :=
  serve_left codes (beside_leaves_trunk beside) h

/-- Every command keeps the three laws. -/
theorem exec_transmit (c : Instr) (s t : State) (h : exec c s = .next t) : StepKept s t := by
  cases c with
  | alignmentAchieved p => exact event_left h (.of_frame (modifyPort_frame s p _))
  | alignmentLost p =>
    exact event_left h (.of_frame (alignmentLost_frame s p) fun _ => (TableKept.alignmentLost (c := True) s p).queue)
  | headerEvent p header =>
    exact event_left h (.of_frame (headerArrives_frame s p header) fun _ => (PartKept.headerArrives s p header).queue)
  | bytesReceived p bytes => exact event_left h (.of_frame (bytesArrive_frame s p bytes))
  | endEvent p => exact event_left h (.of_frame (packetEnds_frame s p) fun _ => (PartKept.packetEnds s p).queue)
  | frameIdleExpiry r =>
    obtain ⟨frame, -, -, queue, -⟩ := endIngressFrame_spec s r .idle
    exact event_left h (.of_frame frame fun _ => ⟨_, queue.symm⟩)
  | characterReceived character stopBit => exact event_left h (character_leaves_trunk s character stopBit)
  | gapAbort => exact event_left h (.of_same rfl rfl rfl rfl)
  | controlPortCompletion straps => exact event_transmit h fun _ => completePort_keeps_transmit s straps
  | unknownCommand => exact serve_beside_trunk (run := unknownCommand) (fun code => !commandCodes.contains code) h
  | identify => exact serve_beside_trunk (run := identify) (· == 0x01) h
  | claim => exact serve_beside_trunk (run := claim) (· == 0x02) h
  | drop => exact serve_beside_trunk (run := drop) (· == 0x03) h
  | leaseTime => exact serve_beside_trunk (run := leaseTime) (· == 0x04) h
  | resetPart => exact serve_beside_trunk (run := resetPart) (· == 0x05) h
  | portSet => exact serve_left (· == 0x10) portSet_leaves_trunk h
  | portStatus => exact serve_beside_trunk (run := portStatus) (· == 0x11) h
  | routeRead => exact serve_beside_trunk (run := routeRead) (· == 0x20) h
  | routeWrite => exact serve_beside_trunk (run := routeWrite) (· == 0x21) h
  | routeEnable => exact serve_beside_trunk (run := routeEnable) (· == 0x22) h
  | routeDisable => exact serve_left (· == 0x23) routeDisable_leaves_trunk h
  | tableScan => exact serve_beside_trunk (run := tableScan) (· == 0x24) h
  | hold => exact serve_left (· == 0x28) (gateCommand_leaves_trunk fun _ _ _ => holdGate_leaves_trunk) h
  | release => exact serve_left (· == 0x29) (gateCommand_leaves_trunk fun _ _ _ => releaseGate_leaves_trunk) h
  | step => exact serve_left (· == 0x2A) (gateCommand_leaves_trunk fun _ _ _ => stepGate_leaves_trunk) h
  | holdpointSet => exact serve_beside_trunk (run := holdpointSet) (· == 0x2B) h
  | holdpointClear => exact serve_beside_trunk (run := holdpointClear) (· == 0x2C) h
  | poolStatus => exact serve_beside_trunk (run := poolStatus) (· == 0x30) h
  | trunkStatus => exact serve_beside_trunk (run := trunkStatus) (· == 0x40) h
  | trunkHalt => exact serve_transmit (· == 0x41) trunkHalt_keeps_transmit h
  | trunkStart => exact serve_transmit (· == 0x42) trunkStart_keeps_transmit h
  | trunkRetrain => exact serve_transmit (· == 0x43) trunkRetrain_keeps_transmit h
  | noticeAck => exact serve_beside_trunk (run := noticeAck) (· == 0x50) h
  | noticeReplay => exact serve_beside_trunk (run := noticeReplay) (· == 0x51) h
  | noticeMask => exact serve_beside_trunk (run := noticeMask) (· == 0x52) h
  | noticeRoute => exact serve_beside_trunk (run := noticeRoute) (· == 0x53) h
  | countersRead => exact serve_left (· == 0x60) countersRead_leaves_trunk h
  | creditGrant rest => exact event_transmit h fun _ => takeGrant_keeps_transmit s rest
  | remoteCommandRecord rest =>
    refine event_left h ?_
    split
    · exact takeRemote_leaves_trunk s rest
    · exact .countTrunk s _
  | acknowledgement rest => exact event_transmit h fun _ => acknowledge_keeps_transmit s rest
  | unknownReverseRecord record => exact event_left h (.countTrunk s _)
  | reverseAlignment =>
    exact event_transmit h fun training => setAligned_keeps_transmit s (by simpa using training) true
  | signalLoss =>
    refine event_transmit h fun receives => ?_
    split
    · exact loseSignal_keeps_transmit s
    · next away =>
      exact setAligned_keeps_transmit s (by simpa [State.receivesReverse, away] using receives) false
  | trainTimerExpiry =>
    exact event_transmit h fun runs => (trainExpiry_keeps_transmit s runs).trans (TrunkLeft.countTrunk _ _).kept
  | retryTimerExpiry => exact event_transmit h fun runs => retryExpiry_keeps_transmit s runs
  | transmissionCompletion straps => exact event_transmit h fun _ => completeTrunk_keeps_transmit s straps
  | stallExpiry => exact event_transmit h fun runs => expireStall_keeps_transmit s runs
  | leaseExpiry =>
    refine event_left h ?_
    unfold State.expireLease
    split
    · refine TrunkLeft.trans ?_ (.raise _ _)
      refine TrunkLeft.trans ?_ (.countSource _ _ _)
      exact .of_same rfl rfl rfl rfl
    · exact .of_same rfl rfl rfl rfl
  | graceExpiry straps => exact event_transmit h fun _ => expireGrace_keeps_transmit s straps
  | powerOn straps resetLow =>
    cases resetLow
    · obtain rfl := Host.Outcome.next.inj h
      exact (partReset_keeps_transmit fun _ => ⟨le_rfl, by decide⟩).finished
    · obtain rfl := Host.Outcome.next.inj h
      exact holdInReset_keeps s (by decide)
  | resetNAsserted =>
    obtain rfl := Host.Outcome.next.inj h
    split
    · exact holdInReset_keeps s (by decide)
    · exact .refl s
  | resetNReleased straps =>
    replace h : execResetNReleased straps s = .next t := h
    unfold execResetNReleased at h
    split at h
    · obtain rfl := Host.Outcome.next.inj h
      exact .refl s
    · obtain rfl := Host.Outcome.next.inj h
      exact (partReset_keeps_transmit nextEpoch_range).finished
    · obtain rfl := Host.Outcome.next.inj h
      exact (partReset_keeps_transmit fun _ => ⟨le_rfl, by decide⟩).finished

end Rows

/-- Settles O58: the front command keeps each law alone, and the queue of waiting commands is in none. -/
theorem transmitLawsAreKept : Obligations.TransmitLawsAreKept := by
  intro s t h
  have kept : StepKept s t := by
    unfold step at h
    split at h
    · obtain rfl := Host.Outcome.next.inj h
      exact .refl s
    · next c rest _ =>
      obtain ⟨link, stall, free⟩ := exec_transmit c _ t h
      exact ⟨link, stall, free⟩
  exact ⟨kept.link, kept.stall, kept.free⟩

end Sys2Proof.Machine
end

section
/-! SUPPORT. The moves of the link (R115, R119, R121, R130 to R134, R136 to R138): what a move leaves of the link and of
the sender, what TRUNK_TX then carries, and one equation for each event and command that moves the link. -/

namespace Sys2Proof.Machine

-- One theorem after another, as in the model's tests.
set_option Elab.async false

/-! ## Link and sender after a move -/

/-- The sender after a departure from LOCKED (R115, R119, R121). -/
def Sender.dropped (x : Sender) : Sender :=
  { credits := 0, inFlight := .nothing, stallTimer := .stopped, stalled := false, wire := [],
    headInterrupted := x.headInterrupted || decide (x.inFlight = .stream) }

/-- The link at step 1 of R130. -/
def Link.inTraining (x : Link) : Link :=
  { x with state := .training, reverseAligned := false, trainTimer := .running 20, retryTimer := .stopped }

/-- The link out of service (R136). -/
def Link.outOfService (x : Link) : Link :=
  { x with state := .halted, reverseAligned := false, trainTimer := .stopped, retryTimer := .stopped }

section Moves
variable (s : State)

theorem dropLock_sender : s.dropLock.sender = s.sender.dropped := rfl

theorem enterTraining_link : s.enterTraining.link = s.link.inTraining := rfl

theorem enterHalted_link : s.enterHalted.link = s.link.outOfService := rfl

/-- HALTS moves unless the link was HALTED (R136). -/
theorem haltLink_eq :
    s.haltLink = s.dropLock.enterHalted.countTrunk fun c =>
      { c with halts := if s.link.state = .halted then c.halts else bump c.halts } := by
  unfold State.haltLink
  by_cases halted : s.link.state = .halted
  · simp only [halted, if_true]; rfl
  · simp only [halted, if_false]

/-- TRUNK_HALT moves the sender, the link and HALTS alone (R136). -/
theorem haltLink_spec :
    SameBut s s.haltLink [.sender, .link, .trunkCounters] ∧ s.haltLink.sender = s.sender.dropped ∧
      s.haltLink.link = s.link.outOfService ∧
      s.haltLink.trunkCounters =
        { s.trunkCounters with
          halts := if s.link.state = .halted then s.trunkCounters.halts else bump s.trunkCounters.halts } := by
  rw [haltLink_eq]
  have moved := ((dropLock_frame s).mono (more := [.sender, .link, .trunkCounters]) (by decide)).trans
    ((enterHalted_frame _).mono (by decide))
  exact ⟨moved.trans ((countTrunk_frame _ _).mono (by decide)), dropLock_sender s, enterHalted_link _, rfl⟩

/-- TRUNK_RETRAIN moves the sender, the link and RETRAINS alone (R138). -/
theorem retrainLink_spec :
    SameBut s s.retrainLink [.sender, .link, .trunkCounters] ∧ s.retrainLink.sender = s.sender.dropped ∧
      s.retrainLink.link = s.link.inTraining ∧
      s.retrainLink.trunkCounters = { s.trunkCounters with retrains := bump s.trunkCounters.retrains } := by
  have moved := ((dropLock_frame s).mono (more := [.sender, .link, .trunkCounters]) (by decide)).trans
    ((enterTraining_frame _).mono (by decide))
  exact ⟨moved.trans ((countTrunk_frame _ _).mono (by decide)), dropLock_sender s, enterTraining_link _, rfl⟩

theorem loseSignal_frame : SameBut s s.loseSignal [.sender, .link, .trunkCounters, .notices] :=
  ((((dropLock_frame s).mono (by decide)).trans ((enterDown_frame _).mono (by decide))).trans
    ((countTrunk_frame _ _).mono (by decide))).trans ((raise_frame _ _).mono (by decide))

theorem lock_frame : SameBut s s.lock [.link, .trunkCounters, .notices] := by
  intro piece other
  cases piece <;> first | rfl | exact absurd (by decide) other

/-- Reverse alignment is seen or lost, and the train timer runs on (R130). -/
theorem setAligned_frame (aligned : Bool) :
    SameBut s { s with link := { s.link with reverseAligned := aligned } } [.link] := by
  intro piece other
  cases piece <;> first | rfl | exact absurd (by decide) other

end Moves

/-! ## What TRUNK_TX carries -/

section Signal
variable {s : State}

theorem trunkSignal_quiet (out : s.link.state = .halted ∨ s.link.state = .down) : s.trunkSignal = .quiet := by
  unfold State.trunkSignal
  split
  · rcases out with h | h <;> simp only [h]
  · rfl

theorem trunkSignal_pattern (high : s.resetLine = .high) {link : Link} (training : s.link = link.inTraining) :
    s.trunkSignal = .pattern := by
  simp [State.trunkSignal, high, training, Link.inTraining]

end Signal

/-! ## The events of the link -/

section Events
variable {s : State} {rest : List Byte}

theorem receivesReverse_iff : s.receivesReverse = true ↔ s.link.state = .training ∨ s.link.state = .locked := by
  simp [State.receivesReverse]

/-- In HALTED and DOWN nothing is received (R129, R135). -/
theorem not_receivesReverse (out : s.link.state = .halted ∨ s.link.state = .down) : s.receivesReverse = false := by
  rcases out with h | h <;> simp [State.receivesReverse, h]

theorem exec_acknowledgement (high : s.resetLine = .high)
    (receives : s.link.state = .training ∨ s.link.state = .locked) :
    exec (.acknowledgement rest) s = .next (s.acknowledge rest).finish :=
  event_possible _ high (receivesReverse_iff.2 receives)

theorem exec_reverseAlignment (high : s.resetLine = .high) (training : s.link.state = .training) :
    exec .reverseAlignment s = .next { s with link := { s.link with reverseAligned := true } }.finish :=
  event_possible _ high (by simp [training])

theorem exec_signalLoss_training (high : s.resetLine = .high) (training : s.link.state = .training) :
    exec .signalLoss s = .next { s with link := { s.link with reverseAligned := false } }.finish := by
  refine (event_possible _ high (receivesReverse_iff.2 (.inl training))).trans ?_
  rw [if_neg (by simp [training])]

theorem exec_signalLoss_locked (high : s.resetLine = .high) (locked : s.link.state = .locked) :
    exec .signalLoss s = .next s.loseSignal.finish := by
  refine (event_possible _ high (receivesReverse_iff.2 (.inr locked))).trans ?_
  rw [if_pos locked]

theorem readAcknowledgement_good {e0 e1 lo hi : Byte}
    (check : checkBytes (recordCheck [0x32, e0, e1]) = [lo, hi]) :
    readAcknowledgement [e0, e1, lo, hi] = some (read16 e0 e1) := if_pos check

theorem readAcknowledgement_bad {epoch : Nat}
    (bad : ∀ e0 e1 lo hi, rest = [e0, e1, lo, hi] →
      checkBytes (recordCheck [0x32, e0, e1]) ≠ [lo, hi] ∨ read16 e0 e1 ≠ epoch) :
    readAcknowledgement rest ≠ some epoch := by
  unfold readAcknowledgement
  split
  · next e0 e1 lo hi =>
    split
    · next check =>
      rw [ne_eq, Option.some.injEq]
      exact (bad e0 e1 lo hi rfl).resolve_left (absurd check)
    · simp
  · simp

theorem acknowledge_locks (training : s.link.state = .training) (aligned : s.link.reverseAligned = true)
    (read : readAcknowledgement rest = some s.link.epoch) : s.acknowledge rest = s.lock := by
  rw [State.acknowledge, if_pos training, if_pos read, if_pos aligned]

/-- An acknowledgement that does not read as the part's epoch, or that comes in LOCKED, is discarded (R130, R135). -/
theorem acknowledge_discards
    (useless : s.link.state = .locked ∨ readAcknowledgement rest ≠ some s.link.epoch) :
    s.acknowledge rest = s.discardReverse := by
  unfold State.acknowledge
  split
  · next training => exact if_neg (useless.resolve_left (by simp [training]))
  · rfl

end Events

/-! ## The link commands -/

section Commands
variable {s : State} {src : Source} (holds : s.holdsLease src = true)
include holds

theorem trunkHalt_halts : trunkHalt src [] s = succeed s.haltLink [s.link.state.code, 0] := by
  rw [trunkHalt, if_pos holds]; rfl

theorem trunkStart_starts (halted : s.link.state = .halted) : trunkStart src [] s = succeed s.enterTraining [1] := by
  simp only [trunkStart, holds, halted]; rfl

theorem trunkStart_wrongState (other : s.link.state ≠ .halted) :
    trunkStart src [] s = refuse s .wrongState [s.link.state.code] := by
  simp [trunkStart, holds, other]

theorem trunkRetrain_retrains (up : s.link.state = .locked ∨ s.link.state = .down) :
    trunkRetrain src [] s = succeed s.retrainLink [s.link.state.code, 1] := by
  rcases up with h | h <;> simp only [trunkRetrain, holds, h] <;> rfl

theorem trunkRetrain_wrongState (other : s.link.state = .training ∨ s.link.state = .halted) :
    trunkRetrain src [] s = refuse s .wrongState [s.link.state.code] := by
  rcases other with h | h <;> simp only [trunkRetrain, holds, h] <;> rfl

end Commands

/-- A part that takes a record for execution is not held, and the taking leaves that so (R163). -/
theorem Serves.takeRecord_high {s : State} {src : Source} {record : CommandRecord} {code : Byte}
    (serves : Serves s src record code) : (s.takeRecord src).resetLine = .high := by
  obtain ⟨high, -⟩ := serves
  rw [s.takeRecord_resetLine, high]

/-- A lease command of fixed length with no value out of range makes the checks common to all (R155). -/
theorem leaseChecks_of_lists {i : Instr} {code : Byte} {n : Nat}
    (lease : (i, code) ∈ leaseCommands := by simp [leaseCommands])
    (fixed : (i, code, n) ∈ fixedLeaseCommands := by simp [fixedLeaseCommands]) : LeaseChecks i code n fun _ => False :=
  fun _ _ _ serves => ⟨leaseCommands_need_lease _ lease serves, fixedLeaseCommands_need_length _ fixed serves,
    fun _ _ => False.elim⟩

end Sys2Proof.Machine
end

section
/-! The statements about the link: its commands (R136 to R138), the lock (R130, R131), the reverse records nobody takes
(R130, R135), and its falls (R132 to R134). -/

namespace Sys2Proof.Machine

-- One theorem after another, as in the model's tests.
set_option Elab.async false

/-- Settles O42: each command's move, made by the part that took the record and has its link and its sender. -/
theorem trunkCommandsMoveTheLink : Obligations.TrunkCommandsMoveTheLink := by
  refine ⟨fun s src record holder arguments => ?_, leaseChecks_of_lists, leaseChecks_of_lists, leaseChecks_of_lists⟩
  have holds := holdsLease_takeRecord holder
  have state : (s.takeRecord src).link.state = s.link.state := congrArg _ (s.takeRecord_link src)
  refine ⟨fun serves => ?_, fun serves halted => ?_, fun serves other => ?_, fun serves up => ?_,
    fun serves other => ?_⟩
  · obtain ⟨frame, sender, link, counters⟩ := haltLink_spec (s.takeRecord src)
    rw [s.takeRecord_sender] at sender
    rw [s.takeRecord_link] at link
    rw [s.takeRecord_trunkCounters, state] at counters
    refine ⟨_, ?_, frame, sender, link, trunkSignal_quiet (.inl (by rw [link]; rfl)), counters⟩
    rw [exec_trunkHalt serves, answerOf, arguments, trunkHalt_halts holds, state]; rfl
  · have link := enterTraining_link (s.takeRecord src)
    have frame := enterTraining_frame (s.takeRecord src)
    rw [s.takeRecord_link] at link
    refine ⟨_, ?_, frame, link, trunkSignal_pattern (frame.resetLine.trans serves.takeRecord_high) link⟩
    rw [exec_trunkStart serves, answerOf, arguments, trunkStart_starts holds (state.trans halted)]; rfl
  · exact refuses_of_run (exec_trunkStart serves)
      (by rw [arguments, trunkStart_wrongState holds (by rwa [state]), state])
  · obtain ⟨frame, sender, link, counters⟩ := retrainLink_spec (s.takeRecord src)
    rw [s.takeRecord_sender] at sender
    rw [s.takeRecord_link] at link
    rw [s.takeRecord_trunkCounters] at counters
    refine ⟨_, ?_, frame, sender, link, trunkSignal_pattern (frame.resetLine.trans serves.takeRecord_high) link,
      counters⟩
    rw [exec_trunkRetrain serves, answerOf, arguments, trunkRetrain_retrains holds (by rwa [state]), state]; rfl
  · exact refuses_of_run (exec_trunkRetrain serves)
      (by rw [arguments, trunkRetrain_wrongState holds (by rwa [state]), state])

/-- Settles O46: alignment is one field, an acknowledgement that reads as the epoch is the lock, and any other is
discarded. -/
theorem acknowledgementLocksTheLink : Obligations.AcknowledgementLocksTheLink := by
  intro s high training
  refine ⟨⟨_, exec_reverseAlignment high training, setAligned_frame s true, rfl⟩,
    ⟨_, exec_signalLoss_training high training, setAligned_frame s false, rfl⟩,
    fun e0 e1 lo hi aligned check epoch => ?_, fun rest bad => ?_⟩
  · refine ⟨_, exec_acknowledgement high (.inl training), ?_⟩
    rw [acknowledge_locks training aligned ((readAcknowledgement_good check).trans (congrArg some epoch))]
    exact ⟨lock_frame s, rfl, rfl, rfl⟩
  · refine ⟨_, exec_acknowledgement high (.inl training), ?_⟩
    rw [acknowledge_discards (.inr (readAcknowledgement_bad bad))]
    exact ⟨countTrunk_frame s _, rfl⟩

/-- Settles O48: a fall is the entry into DOWN, in LOCKED after the lock is dropped, and the retry is the entry into
TRAINING. -/
theorem linkFallsAndRetries : Obligations.LinkFallsAndRetries := by
  intro s high
  refine ⟨fun runs => ⟨_, event_possible _ high runs, ?_, rfl, trunkSignal_quiet (.inr rfl), rfl⟩,
    fun runs => ⟨_, event_possible _ high runs, enterTraining_frame s, rfl,
      trunkSignal_pattern high (enterTraining_link s)⟩,
    fun down => trunkSignal_quiet (.inr down),
    fun locked => ⟨_, exec_signalLoss_locked high locked, loseSignal_frame s, rfl, rfl, trunkSignal_quiet (.inr rfl),
      rfl, rfl⟩⟩
  exact ((enterDown_frame s).mono (by decide)).trans ((countTrunk_frame _ _).mono (by decide))

/-- Settles O47: in TRAINING and LOCKED the discard is the whole effect; in HALTED and DOWN the event is not
possible. -/
theorem otherReverseRecordsAreDiscarded : Obligations.OtherReverseRecordsAreDiscarded := by
  refine ⟨fun c s high which => ⟨s.discardReverse, ?_, countTrunk_frame s _, rfl⟩, fun c s out which => ?_⟩
  · rcases which with ⟨record, rfl, unknown, receives⟩ | ⟨rest, rfl | rfl, training⟩ | ⟨rest, rfl, locked⟩
    · refine event_possible _ high (Bool.and_eq_true_iff.2 ⟨receivesReverse_iff.2 receives, ?_⟩)
      cases record with
      | nil => rfl
      | cons kind after => exact unknown
    · refine (event_possible _ high (receivesReverse_iff.2 (.inl training))).trans ?_
      rw [State.takeGrant, if_neg (by simp [training])]
    · refine (event_possible _ high (receivesReverse_iff.2 (.inl training))).trans ?_
      rw [if_neg (by simp [training])]
    · rw [exec_acknowledgement high (.inr locked), acknowledge_discards (.inl locked)]
  · have closed := not_receivesReverse out
    obtain ⟨rest, rfl | rfl | rfl | rfl⟩ := which
    · exact event_impossible s _ (.inr closed)
    · exact event_impossible s _ (.inr closed)
    · exact event_impossible s _ (.inr closed)
    · exact event_impossible s _ (.inr (by rw [closed, Bool.false_and]))

end Sys2Proof.Machine
end

section
/-! The statement about part resets (R162 to R164, R127, R170). -/

namespace Sys2Proof.Machine

-- One theorem after another, as in the model's tests.
set_option Elab.async false

section Reset
variable {s : State} {cause : ResetCause} {epoch : Nat} {straps : Straps} {src : Source} {grace : Timer}

/-- The control port while it sends the RESET_DONE of a part reset (R156, R170). -/
def resetDoneInTransmission (cause : ResetCause) (epoch : Nat) : Transmitter :=
  { sending := .notice 1
    wire := portRecord (Notice.body { sequence := 1, info := .resetDone cause epoch, sent := false }) }

/-- After a part reset the control port starts RESET_DONE; the link is not LOCKED and nothing is queued, so the end of
the event does nothing else (R156, R164, R170). -/
theorem partReset_finish (s : State) (cause : ResetCause) (epoch : Nat) (straps : Straps) :
    (s.partReset cause epoch straps).finish =
      { s.partReset cause epoch straps with transmitter := resetDoneInTransmission cause epoch } := by
  have port : (s.partReset cause epoch straps).startControlPort =
      { s.partReset cause epoch straps with transmitter := resetDoneInTransmission cause epoch } := rfl
  have away : (s.partReset cause epoch straps).link.state ≠ .locked := by
    show (if straps.autoTrain then LinkState.training else .halted) ≠ .locked
    split <;> nofun
  rw [State.finish, startSender_busy (.inr (by rwa [(startControlPort_frame _).link])), port]
  rfl

/-- Every block is at its reset value (R164), and the queue of waiting commands stays. -/
theorem partReset_finish_isReset (s : State) (cause : ResetCause) (epoch : Nat) (straps : Straps) :
    IsReset (s.partReset cause epoch straps).finish cause epoch straps ∧
      (s.partReset cause epoch straps).finish.pending = s.pending := by
  rw [partReset_finish]
  refine ⟨⟨port_partReset s cause epoch straps, route_partReset s cause epoch straps, rfl, rfl, rfl, rfl, rfl, rfl, rfl,
    fun src => ?_, rfl, rfl, rfl, rfl, rfl, rfl, rfl⟩, rfl⟩
  cases src <;> rfl

/-- The reset that waited for a reply is taken with the epoch after the one before the completion (R127, R162). -/
theorem resetAfterReply_takes {t : State} (waits : t.resetPending = some { source := src, grace })
    (link : t.link = s.link) (pending : t.pending = s.pending) :
    t.resetAfterReply src straps = s.partReset (.command src .replySent) s.nextEpoch straps := by
  simp only [State.resetAfterReply, waits, if_true, State.partReset, State.nextEpoch, link, pending]

theorem completePort_resets (waits : s.resetPending = some { source := .localSource, grace })
    (reply : s.transmitter.sending = .reply) :
    s.completePort straps = s.partReset (.command .localSource .replySent) s.nextEpoch straps := by
  simp only [State.completePort, reply]
  exact resetAfterReply_takes waits rfl rfl

theorem completeTrunk_resets (waits : s.resetPending = some { source := .remoteSource, grace })
    (reply : s.sender.inFlight = .reply) :
    s.completeTrunk straps = s.partReset (.command .remoteSource .replySent) s.nextEpoch straps := by
  simp only [State.completeTrunk, reply]
  exact resetAfterReply_takes waits rfl rfl

/-- A transmission on CP_TXD completes at a part that is not held. -/
theorem exec_controlPortCompletion (high : s.resetLine = .high) (sending : s.transmitter.sending ≠ .nothing) :
    exec (.controlPortCompletion straps) s = .next (s.completePort straps).finish :=
  event_possible _ high (by simpa using sending)

theorem exec_graceExpiry (high : s.resetLine = .high) (waits : s.resetPending = some { source := src, grace })
    (runs : grace.isRunning = true) :
    exec (.graceExpiry straps) s = .next (s.partReset (.command src .grace) s.nextEpoch straps).finish := by
  refine (event_possible _ high (by simp [waits, runs])).trans ?_
  simp only [State.expireGrace, waits]

end Reset

/-- Settles O51: each of the five events comes to the part reset with its cause and epoch. -/
theorem partResetsAreTaken : Obligations.PartResetsAreTaken := by
  intro s straps next
  have taken := partReset_finish_isReset s
  refine ⟨⟨_, rfl, taken .powerOn 1 straps⟩, fun low => ⟨_, ?_, taken .pin s.nextEpoch straps⟩,
    fun low => ⟨_, ?_, taken .powerOn 1 straps⟩, fun src grace high waits => ⟨fun runs => ?_, ?_, ?_⟩⟩
  · simp only [exec, execResetNReleased, low]
  · simp only [exec, execResetNReleased, low]
  · exact ⟨_, exec_graceExpiry high waits runs, taken _ s.nextEpoch straps⟩
  · rintro rfl reply
    refine ⟨_, exec_controlPortCompletion high (by simp [reply]), ?_⟩
    rw [completePort_resets waits reply]
    exact taken _ s.nextEpoch straps
  · rintro rfl reply
    refine ⟨_, exec_transmissionCompletion high (by simp [reply]), ?_⟩
    rw [completeTrunk_resets waits reply]
    exact taken _ s.nextEpoch straps

end Sys2Proof.Machine
end

section
/-! The statement about the control port's characters: one equation for each branch of R145 to R148, and the judgement
of a record that is whole (R148, R151). -/

namespace Sys2Proof.Machine

/-! ## Frames and judgements -/

theorem modifyReceiver_frame (s : State) (f : Receiver → Receiver) : SameBut s (s.modifyReceiver f) [.receiver] := by
  intro piece hp
  cases piece <;> first | rfl | exact absurd (by decide) hp

/-- What holds of every state a judged source can be in may be weakened. -/
theorem JudgedAndDelivered.imp {x : SourceState} {covered check : List Byte} {becomes weaker : SourceState → Prop}
    (judged : JudgedAndDelivered x covered check becomes) (weaken : ∀ y, becomes y → weaker y) :
    JudgedAndDelivered x covered check weaker := by
  obtain ⟨wrong, otherType, command⟩ := judged
  refine ⟨fun h => weaken _ (wrong h), fun h k => weaken _ (otherType h k), fun sequence code arguments h k => ?_⟩
  obtain ⟨overrun, replay, inbox⟩ := command sequence code arguments h k
  exact ⟨fun full => weaken _ (overrun full), fun reply i j c e => weaken _ (replay reply i j c e),
    fun i fresh => weaken _ (inbox i fresh)⟩

/-! ## One character -/

section Characters
variable {s : State} {x : Receiver} {character : Byte} {stopBit : Bool} {n : Nat}

theorem exec_characterReceived (high : s.resetLine = .high) :
    exec (.characterReceived character stopBit) s = .next (s.character character stopBit).finish :=
  event_possible _ high rfl

/-- The receive logic right after a start character (R145). -/
def Receiver.started : Receiver :=
  { state := .inRecord, position := .length, length := none, record := [], gapTimer := .running 4 }

/-- The receive logic with a further character of the record (R146, R147). -/
def Receiver.adding (x : Receiver) (position : Position) (length : Option Nat) (character : Byte) : Receiver :=
  { x with position, length, record := x.record ++ [character], gapTimer := .running 4 }

/-- The receive logic once the record in reception has ended (R146 to R148). -/
def Receiver.ended (x : Receiver) : Receiver := { x with state := .idle, gapTimer := .stopped }

/-- A good character takes the receive logic from `x` to `y` and does nothing else. -/
def Reads (x : Receiver) (character : Byte) (y : Receiver) : Prop :=
  ∀ s : State, s.receiver = x → s.character character true = { s with receiver := y }

theorem reads_start (idle : x.state = .idle) : Reads x 0x7E .started := by
  rintro s rfl
  simp [State.character, idle, State.idleCharacter, State.modifyReceiver, Receiver.started]

theorem reads_length (inRecord : x.state = .inRecord) (position : x.position = .length) (low : 3 ≤ character.toNat)
    (high : character.toNat ≤ 240) : Reads x character (x.adding .body (some character.toNat) character) := by
  rintro s rfl
  simp [State.character, inRecord, State.recordCharacter, position, low, high, State.modifyReceiver, Receiver.adding]

theorem reads_body (inRecord : x.state = .inRecord) (position : x.position = .body) (length : x.length = some n) :
    Reads x character (x.adding (if x.record.length = n then .check else .body) (some n) character) := by
  rintro s rfl
  simp [State.character, inRecord, State.recordCharacter, position, length, State.modifyReceiver, Receiver.adding]

theorem reads_check (inRecord : x.state = .inRecord) (position : x.position = .check) (length : x.length = some n)
    (more : x.record.length ≠ n + 2) : Reads x character (x.adding .check (some n) character) := by
  rintro s rfl
  simp [State.character, inRecord, State.recordCharacter, position, length, more, State.modifyReceiver,
    Receiver.adding]

/-- The last check character ends the record, which is judged (R148). -/
theorem character_last {covered : List Byte} {first : Byte} (inRecord : s.receiver.state = .inRecord)
    (position : s.receiver.position = .check) (length : s.receiver.length = some n)
    (whole : covered.length = n + 1) (record : s.receiver.record = covered ++ [first]) :
    s.character character true = s.endReception.judgeRecord .localSource covered [first, character] := by
  simp [State.character, inRecord, State.recordCharacter, position, length, record, whole,
    State.completeRecord]

/-- Another character than the start character, or a broken one, is noise in IDLE (R145). -/
theorem character_noise (idle : s.receiver.state = .idle) (bad : character ≠ 0x7E ∨ stopBit = false) :
    s.character character stopBit = s.countSource .localSource fun c => { c with noise := bump c.noise } := by
  have unstarted : ¬ (stopBit && character == 0x7E) = true := by
    rw [Bool.and_eq_true, beq_iff_eq]
    rintro ⟨found, rfl⟩
    exact bad.elim (absurd rfl) fun broken => nomatch found.symm.trans broken
  simp only [State.character, idle]
  exact if_neg unstarted

/-- A broken character, or a length that is none, discards the record as FRAMING (R146). -/
theorem character_framing (inRecord : s.receiver.state = .inRecord)
    (bad : stopBit = false ∨
      (s.receiver.position = .length ∧ (character.toNat < 3 ∨ 240 < character.toNat))) :
    s.character character stopBit = s.discardFraming := by
  simp only [State.character, inRecord]
  rcases stopBit with _ | _
  · rfl
  · obtain ⟨position, range⟩ := bad.resolve_left nofun
    simp only [State.recordCharacter, position, if_true]
    exact if_neg (by omega)

/-- A record that ends changes the receive logic and the local source alone, however the source counts it. -/
theorem endReception_counted_frame (s : State) (f : SourceCounters → SourceCounters) :
    SameBut s (s.endReception.countSource .localSource f) [.receiver, .sourceLocal] :=
  ((modifyReceiver_frame s _).mono (by decide)).trans ((countSource_frame _ .localSource f).mono (by decide))

theorem endReception_judged_frame (s : State) (covered check : List Byte) :
    SameBut s (s.endReception.judgeRecord .localSource covered check) [.receiver, .sourceLocal] :=
  ((modifyReceiver_frame s _).mono (by decide)).trans
    ((judgeRecord_frame _ .localSource covered check).mono (by decide))

theorem endReception_judged_receiver (s : State) (covered check : List Byte) :
    (s.endReception.judgeRecord .localSource covered check).receiver = s.receiver.ended :=
  (judgeRecord_frame s.endReception .localSource covered check).receiver

end Characters

/-- Settles O23: the equation of each branch, and for the last check character the judgement of `judgeRecord_source`. -/
theorem controlPortCharactersAreFramed : Obligations.ControlPortCharactersAreFramed := by
  refine ⟨fun s high idle => ?_, fun s character stopBit high idle bad => ?_,
    fun s character stopBit high inRecord bad => ?_, fun s character high inRecord => ?_, fun s high runs => ?_⟩
  · rw [exec_characterReceived high, reads_start idle s rfl]
    exact ⟨_, rfl, modifyReceiver_frame s fun _ => .started, rfl⟩
  · rw [exec_characterReceived high, character_noise idle bad]
    exact ⟨_, rfl, countSource_frame s .localSource _, rfl⟩
  · rw [exec_characterReceived high, character_framing inRecord bad]
    exact ⟨_, rfl, endReception_counted_frame s _, rfl, rfl⟩
  · have added {y : Receiver} (reads : Reads s.receiver character y) :
        ∃ u, exec (.characterReceived character true) s = .next u.finish ∧ SameBut s u [.receiver] ∧
          u.receiver = y := by
      rw [exec_characterReceived high, reads s rfl]
      exact ⟨_, rfl, modifyReceiver_frame s fun _ => y, rfl⟩
    refine ⟨fun position low high => added (reads_length inRecord position low high), fun n length =>
      ⟨fun position => added (reads_body inRecord position length),
        fun position more => added (reads_check inRecord position length more),
        fun covered first position whole record => ?_⟩⟩
    refine (judgeRecord_source s.endReception .localSource covered [first, character]).imp fun y becomes => ?_
    rw [exec_characterReceived high, character_last inRecord position length whole record]
    exact ⟨_, rfl, endReception_judged_frame s _ _, endReception_judged_receiver s _ _, becomes⟩
  · exact ⟨_, event_possible _ high runs, endReception_counted_frame s _, rfl, rfl⟩

end Sys2Proof.Machine
end

section
/-! The statement that a record sent is the record received: the characters of a record are read one after another by a
part whose queue holds them, whatever it starts to transmit between them. -/

namespace Sys2Proof.Machine

/-! ## Runs of characters -/

section Runs
variable {s t : State} {x y z : Receiver} {character : Byte} {characters more : List Byte} {rest : List Instr}

/-- A run whose first step answers goes on from there. -/
theorem run_succ {k : Nat} (first : step s = .next t) :
    Host.Core.run Sys2Proof.core (k + 1) s = Host.Core.run Sys2Proof.core k t := by
  have first : Sys2Proof.core.step s = .next t := first
  simp only [Host.Core.run, first]

theorem step_character (high : s.resetLine = .high)
    (pending : s.pending = .characterReceived character true :: rest) :
    step s = .next (State.character { s with pending := rest } character true).finish := by
  simp only [step, pending]
  exact exec_characterReceived high

/-- Good characters take the receive logic from `x` to `y`, one after another, and do nothing else. -/
inductive ReadsAll : Receiver → List Byte → Receiver → Prop where
  | nil (x : Receiver) : ReadsAll x [] x
  | cons {x y z : Receiver} {character : Byte} {characters : List Byte} (first : Reads x character y)
      (others : ReadsAll y characters z) : ReadsAll x (character :: characters) z

theorem ReadsAll.append (first : ReadsAll x characters y) (second : ReadsAll y more z) :
    ReadsAll x (characters ++ more) z := by
  induction first with
  | nil => exact second
  | cons read _ ih => exact .cons read (ih second)

/-- What reading a character may change: the receive logic, and what the end of each event starts. -/
def readingPieces : List Piece := [.receiver, .transmitter, .sender, .trunkCounters, .pending]

theorem takePending_frame (s : State) (rest : List Instr) : SameBut s { s with pending := rest } [.pending] := by
  intro piece hp
  cases piece <;> first | rfl | exact absurd (by decide) hp

/-- A character read from the queue. -/
theorem Reads.step (read : Reads x character y) (receiver : s.receiver = x) (high : s.resetLine = .high)
    (pending : s.pending = .characterReceived character true :: rest) :
    ∃ t, step s = .next t ∧ SameBut s t readingPieces ∧ t.receiver = y ∧ t.pending = rest := by
  let taken : State := { s with pending := rest }
  have first := step_character high pending
  rw [read taken receiver] at first
  refine ⟨_, first, ?_, (finish_frame _).receiver, (finish_frame _).pending⟩
  exact (((takePending_frame s rest).mono (by decide)).trans ((modifyReceiver_frame taken fun _ => y).mono
    (by decide))).trans ((finish_frame _).mono (by decide))

/-- A part whose queue begins with characters reads them (R145 to R147). -/
theorem ReadsAll.run (reads : ReadsAll x characters y) (receiver : s.receiver = x) (high : s.resetLine = .high)
    (pending : s.pending = characters.map (.characterReceived · true) ++ rest) :
    ∃ t : State,
      (∀ k, Host.Core.run Sys2Proof.core (characters.length + k) s = Host.Core.run Sys2Proof.core k t) ∧
      SameBut s t readingPieces ∧ t.receiver = y ∧ t.pending = rest := by
  induction reads generalizing s with
  | nil x => exact ⟨s, fun k => by rw [List.length_nil, Nat.zero_add], .refl s _, receiver, pending⟩
  | cons read _ ih =>
    obtain ⟨t, first, frame, receiver, pending⟩ := read.step receiver high pending
    obtain ⟨u, runs, others, receiver, pending⟩ := ih receiver (frame.resetLine.trans high) pending
    refine ⟨u, fun k => ?_, frame.trans others, receiver, pending⟩
    rw [List.length_cons, Nat.add_right_comm, run_succ first, runs]

end Runs

/-! ## The characters of a record -/

section Record
variable {n : Nat}

/-- The receive logic within a record (R144). -/
def Receiver.within (position : Position) (n : Nat) (record : List Byte) : Receiver :=
  { state := .inRecord, position, length := some n, record, gapTimer := .running 4 }

/-- The body is read to its last character, after which the check begins (R146). -/
theorem readsAll_body {sofar : List Byte} : ∀ {body : List Byte}, body ≠ [] →
    sofar.length + body.length = n + 1 → ReadsAll (.within .body n sofar) body (.within .check n (sofar ++ body))
  | [], nonempty, _ => absurd rfl nonempty
  | [last], _, length => by
    have read : Reads (.within .body n sofar) last _ := reads_body rfl rfl rfl
    rw [if_pos (by simpa [Receiver.within] using length)] at read
    exact .cons read (.nil _)
  | character :: next :: body, _, length => by
    have read : Reads (.within .body n sofar) character _ := reads_body rfl rfl rfl
    rw [if_neg (by simp only [Receiver.within, List.length_cons] at length ⊢; omega)] at read
    have others : ReadsAll (.within .body n (sofar ++ [character])) (next :: body) _ :=
      readsAll_body (List.cons_ne_nil _ _) (by
        simp only [List.length_append, List.length_cons, List.length_nil] at length ⊢
        omega)
    rw [List.append_assoc] at others
    exact .cons read others

/-- A record is read up to its last character (R145 to R147, section 10.2). -/
theorem readsAll_record {x : Receiver} {body : List Byte} {first : Byte} (idle : x.state = .idle)
    (low : 3 ≤ body.length) (high : body.length ≤ 240) :
    ReadsAll x (0x7E :: byte body.length :: body ++ [first])
      (.within .check body.length (byte body.length :: body ++ [first])) := by
  have length : (byte body.length).toNat = body.length := by rw [byte_toNat]; omega
  have lengthRead : Reads .started (byte body.length) _ :=
    reads_length rfl rfl (by rw [length]; exact low) (by rw [length]; exact high)
  rw [length] at lengthRead
  have bodyRead : ReadsAll (.within .body body.length [byte body.length]) body _ :=
    readsAll_body (List.ne_nil_of_length_pos (by omega)) (Nat.add_comm 1 _)
  have checkRead : Reads (.within .check body.length (byte body.length :: body)) first _ :=
    reads_check rfl rfl rfl (by simp [Receiver.within])
  exact .cons (reads_start idle) (.cons lengthRead (bodyRead.append (.cons checkRead (.nil _))))

/-- The last character of a COMMAND record puts it into the local inbox, when that is empty and the sequence is not the
cached one (R148, R151). -/
theorem step_lastCharacter {s : State} {length sequence code first last : Byte} {arguments : List Byte}
    {rest : List Instr} (high : s.resetLine = .high) (pending : s.pending = .characterReceived last true :: rest)
    (receiver : s.receiver = .within .check n (length :: 0x01 :: sequence :: code :: arguments ++ [first]))
    (whole : arguments.length + 3 = n)
    (check : checkBytes (recordCheck (length :: 0x01 :: sequence :: code :: arguments)) = [first, last])
    (inbox : s.sourceLocal.inbox = none)
    (fresh : ∀ reply, s.sourceLocal.cache = some reply → reply.sequence ≠ sequence) :
    ∃ t, step s = .next t ∧ SameBut s t (.sourceLocal :: readingPieces) ∧ t.receiver = s.receiver.ended ∧
      t.pending = rest ∧
      t.sourceLocal =
        { s.sourceLocal with
          inbox := some { sequence, code, arguments }
          counters := { s.sourceLocal.counters with goodRecords := bump s.sourceLocal.counters.goodRecords } } := by
  let taken : State := { s with pending := rest }
  have final := step_character high pending
  rw [character_last (s := taken) (covered := length :: 0x01 :: sequence :: code :: arguments) (n := n)
    (by rw [receiver]; rfl) (by rw [receiver]; rfl) (by rw [receiver]; rfl) (by simp [← whole])
    (by rw [receiver]; rfl)] at final
  obtain ⟨-, -, command⟩ := judgeRecord_source taken.endReception .localSource _ [first, last]
  obtain ⟨-, -, filled⟩ := command sequence code arguments check rfl
  refine ⟨_, final, ?_, ?_, (finish_frame _).pending.trans (endReception_judged_frame taken _ _).pending,
    (finish_frame _).sourceLocal.trans (filled inbox fresh)⟩
  · exact (((takePending_frame s rest).mono (by decide)).trans ((endReception_judged_frame taken _ _).mono
      (by decide))).trans ((finish_frame _).mono (by decide))
  · exact (finish_frame _).receiver.trans (endReception_judged_receiver taken _ _)

end Record

/-- A frame from the part with another queue of waiting commands, when the queue ends as it was. -/
theorem SameBut.of_pending {s t : State} {pending : List Instr} {changed : List Piece}
    (frame : SameBut { s with pending } t (.pending :: changed)) (same : t.pending = s.pending) :
    SameBut s t changed := by
  intro piece other
  by_cases queue : piece = .pending
  · exact queue ▸ same
  · have kept := frame piece (by simp [queue, other])
    cases piece <;> first | exact kept | exact absurd rfl queue

/-- Settles O24: all characters but the last are read, and the last one makes the record complete and judged. -/
theorem recordSentIsRecordReceived : Obligations.RecordSentIsRecordReceived := by
  intro s sequence code arguments high idle inbox fresh short characters
  let body : List Byte := 0x01 :: sequence :: code :: arguments
  let covered : List Byte := byte body.length :: body
  obtain ⟨first, last, check⟩ : ∃ first last, checkBytes (recordCheck covered) = [first, last] := ⟨_, _, rfl⟩
  have spelled : characters = (0x7E :: byte body.length :: body ++ [first]) ++ [last] := by
    show 0x7E :: (covered ++ checkBytes (recordCheck covered)) = _
    rw [check]
    simp [covered]
  let queued : State := { s with pending := characters.map (.characterReceived · true) ++ s.pending }
  have low : 3 ≤ body.length := by simp [body]
  have bound : body.length ≤ 240 := by simp only [body, List.length_cons]; omega
  obtain ⟨t, runs, frame, receiver, pending⟩ := (readsAll_record (first := first) idle low bound).run (s := queued)
    (rest := .characterReceived last true :: s.pending) rfl high (by simp [queued, spelled])
  have sourceLocal : t.sourceLocal = s.sourceLocal := frame.sourceLocal
  obtain ⟨u, final, others, ended, left, filled⟩ := step_lastCharacter (frame.resetLine.trans high) pending receiver
    rfl check (sourceLocal ▸ inbox) (sourceLocal ▸ fresh)
  refine ⟨u, ?_, .of_pending (((frame.mono (by decide)).trans others).mono (by decide)) left, ?_, ?_, ?_⟩
  · have count : characters.length = (0x7E :: byte body.length :: body ++ [first]).length + 1 := by
      rw [spelled, List.length_append]; rfl
    rw [count]
    exact (runs 1).trans (run_succ final)
  · rw [ended]; rfl
  · rw [ended]; rfl
  · rw [filled, sourceLocal]

end Sys2Proof.Machine
end

section
/-! The statements about the control port's transmit side (R156, R172) and about remote command records (R149, R151,
R185). -/

namespace Sys2Proof.Machine

/-! ## The choice of the control port -/

section Transmit
variable {s : State} {straps : Straps}

theorem startControlPort_busy (busy : s.transmitter.sending ≠ .nothing) : s.startControlPort = s := by
  unfold State.startControlPort
  split
  · next free => exact absurd free busy
  · rfl

theorem startControlPort_reply {reply : Reply} (free : s.transmitter.sending = .nothing)
    (slot : s.sourceLocal.slot = some reply) :
    s.startControlPort = { s with transmitter := { sending := .reply, wire := portRecord reply.body } } := by
  simp only [State.startControlPort, free, slot]

theorem startControlPort_notice {n : Notice} (free : s.transmitter.sending = .nothing)
    (slot : s.sourceLocal.slot = none) (destination : s.notices.destination = .localSource)
    (offer : s.oldestEligible = some n) :
    s.startControlPort =
      { s with transmitter := { sending := .notice n.sequence, wire := portRecord n.body } } := by
  simp only [State.startControlPort, free, slot, destination, offer]

theorem startControlPort_quiet (free : s.transmitter.sending = .nothing) (slot : s.sourceLocal.slot = none)
    (noNotice : s.notices.destination ≠ .localSource ∨ s.oldestEligible = none) : s.startControlPort = s := by
  simp only [State.startControlPort, free, slot]
  split
  · next destination offer => simp [destination, offer] at noNotice
  · rfl

/-- The sender's start and the stall timer leave the control port's choice as it is. -/
theorem finish_transmitter (s : State) : s.finish.transmitter = s.startControlPort.transmitter :=
  (followStall_frame _).transmitter.trans (startSender_frame _).transmitter

/-! ## A completion on CP_TXD -/

/-- The part with nothing in transmission on CP_TXD (R156). -/
def State.portFree (s : State) : State := { s with transmitter := { sending := .nothing, wire := [] } }

theorem portFree_frame (s : State) : SameBut s s.portFree [.transmitter] := by
  intro piece hp
  cases piece <;> first | rfl | exact absurd (by decide) hp

theorem completePort_reply (reply : s.transmitter.sending = .reply)
    (other : ∀ pending, s.resetPending = some pending → pending.source ≠ .localSource) :
    s.completePort straps = s.portFree.modifySource .localSource fun x => { x with slot := none } := by
  simp only [State.completePort, reply]
  exact resetAfterReply_of_other other

theorem completePort_notice {sequence : Nat} (notice : s.transmitter.sending = .notice sequence) :
    s.completePort straps = { s.portFree with notices := s.notices.markSent sequence } := by
  simp only [State.completePort, notice]
  rfl

end Transmit

/-- Settles O3: what the end of an event transmits is the control port's choice, and each clause is one choice. -/
theorem endOfEventStartsTheControlPort : Obligations.EndOfEventStartsTheControlPort := by
  intro s
  rw [finish_transmitter]
  refine ⟨finish_frame s, fun busy => ?_, fun free => ⟨fun reply slot => ?_, fun slot =>
    ⟨fun n destination offers => ?_, fun quiet => ?_⟩⟩⟩
  · rw [startControlPort_busy busy]
  · rw [startControlPort_reply free slot]
  · rw [startControlPort_notice free slot destination (offers_iff.1 offers)]
  · rw [startControlPort_quiet free slot (quiet.imp_right offersNone_iff.1)]

/-- Settles O25: the port with nothing in transmission, from which the slot is emptied or the notice marked. -/
theorem controlPortCompletionFreesThePort : Obligations.ControlPortCompletionFreesThePort := by
  refine ⟨fun s straps high reply other => ?_, fun s straps sequence high notice => ?_⟩
  · refine ⟨_, exec_controlPortCompletion high (by simp [reply]), ?_⟩
    rw [completePort_reply reply other]
    exact ⟨((portFree_frame s).mono (by decide)).trans ((modifySource_frame _ .localSource _).mono (by decide)), rfl,
      rfl⟩
  · refine ⟨_, exec_controlPortCompletion high (by simp [notice]), ?_⟩
    rw [completePort_notice notice]
    refine ⟨fun piece hp => ?_, rfl, rfl⟩
    cases piece <;> first | rfl | exact absurd (by decide) hp

/-! ## Remote command records -/

section Remote
variable {s : State} {rest : List Byte} {length : Byte}

theorem exec_remoteCommandRecord (high : s.resetLine = .high) (locked : s.link.state = .locked) :
    exec (.remoteCommandRecord rest) s = .next (s.takeRemote rest).finish := by
  refine (event_possible _ high (receivesReverse_iff.2 (.inr locked))).trans ?_
  rw [if_pos locked]

/-- A record that names a length outside 3 to 240, or that has not the size it names, is FRAMING (R149, R185). -/
theorem takeRemote_framing (bad : ∀ length after, rest = length :: after →
      ¬ (3 ≤ length.toNat ∧ length.toNat ≤ 240 ∧ after.length = length.toNat + 2)) :
    s.takeRemote rest = s.countSource .remoteSource fun c => { c with framing := bump c.framing } := by
  rcases rest with _ | ⟨length, after⟩
  · rfl
  · exact if_neg (bad length after rfl)

/-- A record of the right length is judged, its last two bytes against the others (R149). -/
theorem takeRemote_judged {body : List Byte} {lo hi : Byte} (size : body.length = length.toNat)
    (low : 3 ≤ length.toNat) (high : length.toNat ≤ 240) :
    s.takeRemote (length :: body ++ [lo, hi]) = s.judgeRecord .remoteSource (length :: body) [lo, hi] := by
  have whole : 3 ≤ length.toNat ∧ length.toNat ≤ 240 ∧ (body ++ [lo, hi]).length = length.toNat + 2 :=
    ⟨low, high, by simp [size]⟩
  have cut : s.takeRemote (length :: (body ++ [lo, hi])) = s.judgeRecord .remoteSource
      (length :: (body ++ [lo, hi]).take length.toNat) ((body ++ [lo, hi]).drop length.toNat) := if_pos whole
  rwa [← size, List.take_left, List.drop_left] at cut

end Remote

/-- Settles O26: the length decides whether the record is FRAMING or judged, and `judgeRecord_source` says what a judged
one does. -/
theorem remoteRecordIsCheckedAndDelivered : Obligations.RemoteRecordIsCheckedAndDelivered := by
  intro s high locked x becomes framing
  have discarded {rest : List Byte} (bad : ∀ length after, rest = length :: after →
      ¬ (3 ≤ length.toNat ∧ length.toNat ≤ 240 ∧ after.length = length.toNat + 2)) : becomes rest framing :=
    ⟨_, (exec_remoteCommandRecord high locked).trans (by rw [takeRemote_framing bad]),
      countSource_frame s .remoteSource _, rfl⟩
  refine ⟨fun rest short => discarded ?_,
    fun length body lo hi => ⟨fun wrong => discarded ?_, fun size low bound => ?_⟩⟩
  · rintro length after rfl ⟨low, -, size⟩
    simp only [List.length_cons] at short
    omega
  · intro named after same ⟨low, bound, size⟩
    obtain ⟨rfl, rfl⟩ : length = named ∧ body ++ [lo, hi] = after := List.cons.inj same
    simp only [List.length_append, List.length_cons, List.length_nil] at size
    omega
  · refine (judgeRecord_source s .remoteSource (length :: body) [lo, hi]).imp fun y judged => ?_
    exact ⟨_, (exec_remoteCommandRecord high locked).trans (by rw [takeRemote_judged size low bound]),
      judgeRecord_frame s .remoteSource _ _, judged⟩

end Sys2Proof.Machine
end

section
/-! The statements about the executor: the arbiter (R153), the reply (R154, R157), the lease (R158, R159) and RESET_PART
(R162). -/

namespace Sys2Proof.Machine

/-! ## The arbiter -/

section Arbiter
variable {s : State} {src : Source} {record : CommandRecord}

theorem qualifies_iff {x : SourceState} : x.qualifies = true ↔ x.inbox.isSome = true ∧ x.slot = none := by
  simp [SourceState.qualifies]

/-- The source that is not this one. -/
def Source.other : Source → Source
  | .localSource => .remoteSource
  | .remoteSource => .localSource

theorem forall_ne_source {P : Source → Prop} : (∀ other, other ≠ src → P other) ↔ P src.other := by
  refine ⟨fun all => all _ (by cases src <;> nofun), fun one other different => ?_⟩
  have same : other = src.other := by
    cases src <;> cases other <;> first | rfl | exact absurd rfl different
  exact same ▸ one

/-- The arbiter chooses the source that qualifies alone, and of two the one whose turn it is: the table of R153, over
the two inboxes and the arbiter memory. -/
theorem arbiterChoice_eq_some :
    s.arbiterChoice = some src ↔
      s.resetPending = none ∧ (s.source src).qualifies = true ∧
      ∀ other, other ≠ src → (s.source other).qualifies = true →
        (src = .localSource ↔ s.arbiter ≠ some .localSource) := by
  rw [forall_ne_source, State.arbiterChoice]
  rcases s.resetPending with _ | waiting
  · rcases here : s.sourceLocal.qualifies with _ | _
    · rcases there : s.sourceRemote.qualifies with _ | _
      · cases src <;> simp [State.source, here, there]
      · cases src <;> simp [State.source, Source.other, here, there]
    · rcases there : s.sourceRemote.qualifies with _ | _
      · cases src <;> simp [State.source, Source.other, here, there]
      · by_cases turn : s.arbiter = some .localSource
        all_goals cases src <;> simp [State.source, Source.other, here, there, turn]
  · simp

theorem nextRecord_eq_some :
    s.nextRecord = some (src, record) ↔ s.arbiterChoice = some src ∧ (s.source src).inbox = some record := by
  simp only [State.nextRecord, Option.bind_eq_some_iff, Option.map_eq_some_iff, Prod.mk.injEq]
  constructor
  · rintro ⟨chosen, choice, taken, inbox, rfl, rfl⟩
    exact ⟨choice, inbox⟩
  · rintro ⟨choice, inbox⟩
    exact ⟨src, choice, record, inbox, rfl, rfl⟩

end Arbiter

/-- Settles O5: the choice with the record that the inbox then holds; the taking is the update. -/
theorem arbiterAlternates : Obligations.ArbiterAlternates := by
  refine ⟨fun s src record => ?_, fun s src => ⟨takeRecord_frame s src, s.source_takeRecord_self src, rfl⟩⟩
  simp only [nextRecord_eq_some, arbiterChoice_eq_some, qualifies_iff, and_imp]
  constructor
  · rintro ⟨⟨pending, ⟨-, slot⟩, turn⟩, inbox⟩
    exact ⟨pending, inbox, slot, turn⟩
  · rintro ⟨pending, inbox, slot, turn⟩
    exact ⟨⟨pending, ⟨by rw [inbox]; rfl, slot⟩, turn⟩, inbox⟩

/-! ## The reply -/

section Reply
variable (b : State) (src : Source) (r : Reply)

theorem reply_frame : SameBut b (b.reply src r) [src.piece, .lease] :=
  (((modifySource_frame b src _).mono (by simp)).trans ((countSource_frame _ src _).mono (by simp))).trans
    ((restartLease_frame _ src).mono (by simp))

theorem reply_source :
    (b.reply src r).source src =
      { b.source src with
        slot := some r
        cache := some r
        counters :=
          { (b.source src).counters with
            executed := bump (b.source src).counters.executed
            notOk := if r.status = .ok then (b.source src).counters.notOk
              else bump (b.source src).counters.notOk } } := by
  rw [State.reply, State.restartLease_source, State.source_countSource_self, State.source_modifySource_self]

theorem reply_lease :
    (b.reply src r).lease =
      if b.lease.holder = some src then { b.lease with timer := .running b.lease.time } else b.lease := by
  have unchanged : ((b.modifySource src fun x => { x with slot := some r, cache := some r }).countSource src fun c =>
      { c with executed := bump c.executed, notOk := if r.status = .ok then c.notOk else bump c.notOk }).lease =
      b.lease := by
    rw [State.countSource_lease, State.modifySource_lease]
  rw [State.reply, restartLease_lease, unchanged]

end Reply

/-- Settles O6: the source, and the lease by its holder; the frame leaves the rest. -/
theorem replyIsPlacedAndCached : Obligations.ReplyIsPlacedAndCached := by
  refine fun b src r => ⟨reply_frame b src r, reply_source b src r, fun holds => ?_, fun other => ?_⟩
  · rw [reply_lease, if_pos holds]
  · rw [reply_lease, if_neg other]

/-! ## The lease -/

section Lease
variable {s : State} {src other : Source} {args : List Byte} {time : Nat}

theorem setLease_frame (s : State) (lease : Lease) : SameBut s { s with lease } [.lease] := by
  intro piece hp
  cases piece <;> first | rfl | exact absurd (by decide) hp

theorem claim_grants (free : s.lease.holder = none ∨ s.lease.holder = some src) :
    claim src [] s =
      succeed { s with lease := { s.lease with holder := some src, timer := .running s.lease.time } }
        (src.code :: word16 s.lease.time) := by
  have all : s.lease.holder.all (· == src) = true := by rcases free with h | h <;> simp [h]
  simp only [claim, List.isEmpty_nil, if_true]
  exact if_pos all

theorem claim_held (holder : s.lease.holder = some other) (different : other ≠ src) :
    claim src [] s = refuse s .leaseHeld (other.code :: word16 s.lease.time) := by
  have taken : ¬ s.lease.holder.all (· == src) = true := by simp [holder, different]
  simp only [claim, List.isEmpty_nil, if_true]
  rw [if_neg taken, Lease.report, holder]
  rfl

theorem claim_badLength (some : args ≠ []) :
    claim src args s = refuse s .badLength (holderCode s.lease.holder :: word16 s.lease.time) :=
  if_neg (by simpa using some)

theorem drop_ends (holds : s.holdsLease src = true) :
    drop src [] s = succeed { s with lease := { s.lease with holder := none, timer := .stopped } } [0] := by
  simp only [drop, List.isEmpty_nil, if_true, holds]
  rfl

theorem drop_wrongState (other : s.holdsLease src = false) :
    drop src [] s = refuse s .wrongState [holderCode s.lease.holder] := by
  simp [drop, other]

theorem drop_badLength (some : args ≠ []) : drop src args s = refuse s .badLength [holderCode s.lease.holder] :=
  if_neg (by simpa using some)

theorem leaseTime_sets (holds : s.holdsLease src = true) (low : 100 ≤ time) (high : time ≤ 60000) :
    leaseTime src (word16 time) s = succeed { s with lease := { s.lease with time } } (word16 time) := by
  have read : readRange 100 60000 (read16 (byte time) (byte (time / 256))) = some time := by
    rw [read16_word16 (by omega), readRange_eq_some]
    exact ⟨low, high, rfl⟩
  simp only [leaseTime, holds, if_true, word16, read]

theorem leaseTime_badArg (holds : s.holdsLease src = true) (out : time < 100 ∨ (60000 < time ∧ time < 65536)) :
    leaseTime src (word16 time) s = refuse s .badArg [] := by
  have read : readRange 100 60000 (read16 (byte time) (byte (time / 256))) = none := by
    rw [read16_word16 (by omega)]
    exact if_neg (by omega)
  simp only [leaseTime, holds, if_true, word16, read]

theorem leaseTime_checks : LeaseChecks .leaseTime 0x04 2 fun arguments =>
    ∃ time, arguments = word16 time ∧ (time < 100 ∨ (60000 < time ∧ time < 65536)) := by
  have checks : LeaseChecks .leaseTime 0x04 2 fun _ => False := leaseChecks_of_lists
  refine fun s src record serves => ⟨checks.needsLease serves, checks.needsLength serves,
    fun holder _ ⟨time, arguments, out⟩ => refuses_of_run (exec_leaseTime serves) ?_⟩
  rw [arguments, leaseTime_badArg (holdsLease_takeRecord holder) out]

theorem resetPart_waits (holds : s.holdsLease src = true) :
    resetPart src [] s =
      succeed { s with resetPending := some { source := src, grace := .running 10 } }
        (word16 s.link.epoch ++ word16 s.nextEpoch) := by
  simp only [resetPart, List.isEmpty_nil, if_true, holds]

end Lease

/-- Settles O30: each outcome is one equation, for the part that took the record and has its lease. -/
theorem leaseIsClaimedDroppedAndTimed : Obligations.LeaseIsClaimedDroppedAndTimed := by
  refine ⟨fun s src record => ?_, leaseTime_checks⟩
  have lease := s.takeRecord_lease src
  refine ⟨fun serves arguments free => ?_, fun other serves arguments holder different => ?_,
    fun serves arguments holder => ?_, fun serves arguments other => ?_,
    fun time serves arguments holder low high => ?_, fun serves long => ?_, fun serves long => ?_⟩
  · refine ⟨_, ?_, setLease_frame (s.takeRecord src) _, rfl⟩
    rw [exec_claim serves, answerOf, arguments, claim_grants (by rwa [lease]), lease]; rfl
  · refine refuses_of_run (exec_claim serves) ?_
    rw [arguments, claim_held (by rwa [lease]) different, lease]
  · refine ⟨_, ?_, setLease_frame (s.takeRecord src) _, rfl⟩
    rw [exec_drop serves, answerOf, arguments, drop_ends (holdsLease_takeRecord holder), lease]; rfl
  · refine refuses_of_run (exec_drop serves) ?_
    rw [arguments, drop_wrongState (not_holdsLease_takeRecord other), lease]
  · refine ⟨_, ?_, setLease_frame (s.takeRecord src) _, rfl⟩
    rw [exec_leaseTime serves, answerOf, arguments, leaseTime_sets (holdsLease_takeRecord holder) low high, lease]; rfl
  · refine refuses_of_run (exec_claim serves) ?_
    rw [claim_badLength long, lease]
  · refine refuses_of_run (exec_drop serves) ?_
    rw [drop_badLength long, lease]

/-- Settles O31: the checks common to lease commands, then the pending reset. -/
theorem resetPartBecomesPending : Obligations.ResetPartBecomesPending := by
  refine ⟨leaseChecks_of_lists, fun s src record serves arguments holder => ?_⟩
  have epochs : word16 (s.takeRecord src).link.epoch ++ word16 (s.takeRecord src).nextEpoch =
      word16 s.link.epoch ++ word16 (if s.link.epoch = 65535 then 1 else s.link.epoch + 1) := by
    rw [State.nextEpoch, s.takeRecord_link]
    rfl
  refine ⟨{ s.takeRecord src with resetPending := some { source := src, grace := .running 10 } }, ?_,
    fun piece hp => ?_, rfl⟩
  · rw [exec_resetPart serves, answerOf, arguments, resetPart_waits (holdsLease_takeRecord holder), epochs]
    rfl
  · cases piece <;> first | rfl | exact absurd (by decide) hp

end Sys2Proof.Machine
end

section
/-! The statements about RESET_N (R163) and about the state right after reset (R164). -/

namespace Sys2Proof.Machine

/-! ## RESET_N -/

section Held
variable {s : State} {c : Instr}

theorem holdInReset_frame (s : State) (line : ResetLine) :
    SameBut s (s.holdInReset line) [.ports, .sender, .receiver, .transmitter, .resetPending, .resetLine] := by
  intro piece hp
  cases piece <;> first | rfl | exact absurd (by decide) hp

theorem port_holdInReset (s : State) (line : ResetLine) (p : Fin 4) :
    (s.holdInReset line).port p = { s.port p with reception := none } := by
  simp [State.holdInReset, State.port]

theorem serve_held (low : s.resetLine ≠ .high) (codes : Byte → Bool)
    (run : Source → List Byte → State → Execution) : s.serve codes run = .next s := by
  unfold State.serve
  split <;> exact event_impossible s _ (.inl low)

/-- A part that is held takes no event but power-on and the release of the pin (R163). -/
theorem exec_held (low : s.resetLine ≠ .high) (noPower : ∀ straps resetLow, c ≠ .powerOn straps resetLow)
    (noRelease : ∀ straps, c ≠ .resetNReleased straps) : exec c s = .next s := by
  cases c with
  | powerOn straps resetLow => exact absurd rfl (noPower straps resetLow)
  | resetNReleased straps => exact absurd rfl (noRelease straps)
  | resetNAsserted =>
    have held : ¬ (s.resetLine == .high) = true := by simpa using low
    exact congrArg Host.Outcome.next (if_neg held)
  | unknownCommand | identify | claim | drop | leaseTime | resetPart | portSet | portStatus | routeRead | routeWrite
  | routeEnable | routeDisable | tableScan | hold | release | step | holdpointSet | holdpointClear | poolStatus
  | trunkStatus | trunkHalt | trunkStart | trunkRetrain | noticeAck | noticeReplay | noticeMask | noticeRoute
  | countersRead =>
    simp only [exec]
    exact serve_held low _ _
  | alignmentAchieved _ | alignmentLost _ | headerEvent _ _ | endEvent _ | bytesReceived _ _ | frameIdleExpiry _
  | characterReceived _ _ | gapAbort | controlPortCompletion _ | creditGrant _ | remoteCommandRecord _
  | acknowledgement _ | unknownReverseRecord _ | reverseAlignment | signalLoss | trainTimerExpiry | retryTimerExpiry
  | transmissionCompletion _ | stallExpiry | leaseExpiry | graceExpiry _ => exact event_impossible s _ (.inl low)

end Held

/-- Settles O52: holding is one update, and a held part leaves every other event alone. -/
theorem resetPinHoldsThePart : Obligations.ResetPinHoldsThePart := by
  unfold Obligations.ResetPinHoldsThePart
  intro heldPart
  have held (s : State) (line : ResetLine) : heldPart s (s.holdInReset line) line :=
    ⟨holdInReset_frame s line, port_holdInReset s line, rfl, rfl, rfl, rfl, rfl⟩
  refine ⟨fun s high => ⟨_, ?_, held s .low⟩, fun s straps => ⟨_, rfl, held s .lowSincePowerOn⟩,
    fun s straps high => ?_, fun c s low noPower noRelease => exec_held low noPower noRelease,
    fun s low => if_neg low⟩
  · exact congrArg Host.Outcome.next (if_pos (by rw [high]; rfl))
  · simp only [exec, execResetNReleased, high]

/-! ## The state right after reset -/

theorem route_resetState (r : Fin 64) : State.reset.route r = Route.reset r := by
  simp [State.reset, State.blank, State.route]

theorem port_resetState (p : Fin 4) : State.reset.port p = Port.reset := by
  simp [State.reset, State.blank, State.port]

/-- A quantity that is 0 for every entry after reset sums to 0. -/
theorem sumRoutes_resetState {f : Route → Nat} (zero : ∀ r, f (Route.reset r) = 0) :
    State.reset.sumRoutes f = 0 := by
  rw [State.sumRoutes, routes_toList, List.map_map]
  refine List.sum_eq_zero fun n member => ?_
  obtain ⟨r, -, rfl⟩ := List.mem_map.1 member
  rw [Function.comp_apply, route_resetState, zero]

theorem resetState_segments : State.reset.SegmentsConserved := by
  refine ⟨?_, fun r => ?_⟩
  · rw [sumRoutes_resetState fun _ => rfl]; rfl
  · rw [route_resetState]; rfl

theorem resetState_descriptors : State.reset.DescriptorsConserved := by
  rw [State.DescriptorsConserved, sumRoutes_resetState fun _ => rfl, sumRoutes_resetState fun _ => rfl]; rfl

theorem resetState_configured : State.reset.Configured := fun r => by
  rw [route_resetState]; exact routeReset_configured r

theorem resetState_gates : State.reset.GateLaw := by
  refine ⟨fun r => ?_, fun p x header reception => ?_⟩
  · rw [route_resetState]; exact ⟨nofun, nofun, fun _ => rfl⟩
  · rw [port_resetState] at reception; cases reception

/-- Every route is DISABLED and nothing is queued. -/
theorem resetState_frames : State.reset.FrameIntegrity := by
  refine ⟨resetState_gates, fun r k _ served => ?_,
    fun channel => ⟨none, none, rfl, fun r _ isOpen => ?_, fun _ => rfl⟩⟩
  · rw [route_resetState] at served; exact absurd rfl served
  · rw [route_resetState] at isOpen; cases isOpen

theorem resetState_link : State.reset.LinkLaw :=
  ⟨linkReset_law le_rfl (by decide) _, State.SenderQuiet.law ⟨rfl, rfl, rfl, rfl, nofun⟩⟩

/-- Settles O60: the laws of the blocks at their reset values; RESET_DONE is in transmission and nothing is queued. -/
theorem resetMeetsEveryLaw : Obligations.ResetMeetsEveryLaw := by
  refine ⟨resetState_segments, resetState_descriptors, resetState_configured, resetState_gates, resetState_frames,
    fun r => ?_, fun p => ?_, .of_idle rfl rfl, leaseReset_law, noticeReset_law.accept rfl _, resetState_link,
    ⟨fun ⟨queued, _⟩ => absurd rfl queued, fun _ => ⟨rfl, rfl⟩⟩, fun _ => ⟨nofun, nofun⟩⟩
  · rw [route_resetState]; exact ⟨fun _ => rfl, frameCounts_of_out rfl⟩
  · rw [port_resetState]; exact .of_none rfl fun _ => rfl

end Sys2Proof.Machine
end

section
/-! The statements about the notice queue: a raise (R167, R168) and the four notice commands (R169, R173, R175 to
R177). -/

namespace Sys2Proof.Machine

-- One theorem after another, as in the model's tests.
set_option Elab.async false

/-! ## Raises -/

section Raise
variable {q : NoticeQueue} {info : NoticeInfo}

theorem NoticeQueue.hasRoom_iff : q.hasRoom = true ↔ q.held.length < 16 ∧ (q.nextSequence = 1 → q.held = []) := by
  simp [NoticeQueue.hasRoom, Decidable.imp_iff_not_or]

theorem NoticeQueue.raise_of_masked (masked : q.mask.masks info = true) : q.raise info = q := if_pos masked

theorem NoticeQueue.raise_of_room (enabled : q.mask.masks info = false) (room : q.hasRoom = true) :
    q.raise info = q.accept info := by
  simp [NoticeQueue.raise, enabled, room]

theorem NoticeQueue.raise_of_full (enabled : q.mask.masks info = false) (full : q.hasRoom = false) :
    q.raise info = { q with lost := if q.lost < 65535 then q.lost + 1 else q.lost } := by
  simp [NoticeQueue.raise, enabled, full]

end Raise

/-- Settles O7: masked, room or no room, one equation each. -/
theorem raisedNoticeIsHeldOrCounted : Obligations.RaisedNoticeIsHeldOrCounted := by
  refine fun q info => ⟨NoticeQueue.raise_of_masked, fun enabled => ⟨fun room => ?_, fun full => ?_⟩,
    fun _ _ => rfl, fun _ => rfl⟩
  · exact NoticeQueue.raise_of_room enabled (NoticeQueue.hasRoom_iff.2 room)
  · exact NoticeQueue.raise_of_full enabled (Bool.eq_false_of_not_eq_true (NoticeQueue.hasRoom_iff.not.2 full))

/-! ## The queue under the commands -/

section Queue
variable {q : NoticeQueue}

theorem NoticeQueue.deliverLost_of_room (lost : 0 < q.lost) (room : q.hasRoom = true) :
    q.deliverLost = { q.accept (.noticesLost q.lost) with lost := 0 } := by
  simp [NoticeQueue.deliverLost, lost, room]

theorem NoticeQueue.deliverLost_of_not (undelivered : ¬(0 < q.lost ∧ q.hasRoom = true)) : q.deliverLost = q :=
  if_neg (by simpa [and_comm] using undelivered)

theorem NoticeQueue.positionOf_first {older newer : List Notice} {n : Notice} (held : q.held = older ++ n :: newer)
    (first : ∀ m ∈ older, m.sequence ≠ n.sequence) : q.positionOf n.sequence = older.length + 1 := by
  have index : q.held.findIdx (·.sequence == n.sequence) = older.length := by
    rw [held, List.findIdx_append, List.findIdx_eq_length.2 (by simpa using first)]
    simp [List.findIdx_cons]
  rw [NoticeQueue.positionOf, index, if_pos (by simp [held])]

theorem NoticeQueue.positionOf_eq_zero {sequence : Nat} (unknown : ∀ n ∈ q.held, n.sequence ≠ sequence) :
    q.positionOf sequence = 0 :=
  if_neg (by simpa using unknown)

/-- The summary of an empty queue has zeros for the presence byte and the two sequences (section 10.3). -/
theorem NoticeQueue.summary_eq (q : NoticeQueue) :
    q.summary =
      byte q.held.length
        :: (match q.held.head?, q.held.getLast? with
            | some first, some last => 1 :: word16 first.sequence ++ word16 last.sequence
            | _, _ => List.replicate 5 0)
        ++ [byte (q.held.countP fun n => !n.sent)] ++ word16 q.nextSequence ++ word16 q.lost
        ++ [q.destination.code] ++ q.mask.bytes := by
  rcases held : q.held with _ | ⟨first, rest⟩
  · simp [NoticeQueue.summary, held, flagByte, word16, byte]
  · simp [NoticeQueue.summary, held, flagByte, List.getLast?_cons]

end Queue

/-! ## Reading the arguments -/

theorem readMask_values (mask : KindMask) : readMask mask.values = some mask := rfl

/-- A mask as it is sent reads back (R176). -/
theorem readMask_bytes (mask : KindMask) : (mask.bytes.mapM readFlag).bind readMask = some mask := by
  have flags (values : List Bool) : (values.map flagByte).mapM readFlag = some values := by
    induction values with
    | nil => rfl
    | cons value rest ih => simp [readFlag_flagByte, ih]
  rw [KindMask.bytes, flags, Option.bind_some, readMask_values]

/-- One byte that is no flag spoils the mask (R176). -/
theorem mapM_readFlag_eq_none {args : List Byte} {b : Byte} (mem : b ∈ args) (h0 : b ≠ 0) (h1 : b ≠ 1) :
    args.mapM readFlag = none := by
  induction mem with
  | head rest => simp [readFlag_eq_none h0 h1]
  | tail first mem ih => simp [ih]

/-! ## The commands -/

section Commands
variable {s : State} {src : Source} {args : List Byte}

theorem noticeAck_removes {older newer : List Notice} {n : Notice} (low : n.sequence < 65536)
    (held : s.notices.held = older ++ n :: newer) (first : ∀ m ∈ older, m.sequence ≠ n.sequence) :
    noticeAck src (word16 n.sequence) s =
      succeed { s with notices := { s.notices with held := newer }.deliverLost }
        (byte (older.length + 1) :: { s.notices with held := newer }.deliverLost.summary) := by
  have left : s.notices.held.drop (older.length + 1) = newer := by simp [held]
  simp only [noticeAck, word16, read16_word16 low, NoticeQueue.positionOf_first held first, left]

theorem noticeAck_badArg {sequence : Nat} (low : sequence < 65536)
    (unknown : ∀ n ∈ s.notices.held, n.sequence ≠ sequence) :
    noticeAck src (word16 sequence) s = refuse s .badArg s.notices.summary := by
  simp only [noticeAck, word16, read16_word16 low, NoticeQueue.positionOf_eq_zero unknown]

theorem noticeReplay_replays :
    noticeReplay src [] s =
      succeed { s with notices := s.notices.replay }
        (byte (s.notices.held.countP (·.sent)) :: s.notices.replay.summary) := rfl

theorem noticeReplay_badLength (long : args ≠ []) : noticeReplay src args s = refuse s .badLength [] :=
  if_neg (by simpa using long)

theorem noticeMask_badArg (holds : s.holdsLease src = true) (length : args.length = 10)
    (out : ∃ b ∈ args, b ≠ 0 ∧ b ≠ 1) : noticeMask src args s = refuse s .badArg [] := by
  obtain ⟨b, mem, h0, h1⟩ := out
  simp [noticeMask, holds, length, mapM_readFlag_eq_none mem h0 h1]

theorem noticeMask_sets (holds : s.holdsLease src = true) (mask : KindMask) :
    noticeMask src mask.bytes s =
      succeed { s with notices := { s.notices with mask } }
        (s.notices.mask.bytes ++ { s.notices with mask }.summary) := by
  have length : mask.bytes.length = 10 := rfl
  simp only [noticeMask, holds, length, if_true, readMask_bytes]

theorem noticeRoute_badArg (holds : s.holdsLease src = true) (out : ∃ b, args = [b] ∧ b ≠ 1 ∧ b ≠ 2) :
    noticeRoute src args s = refuse s .badArg [] := by
  obtain ⟨b, rfl, h1, h2⟩ := out
  simp only [noticeRoute, holds, if_true, readSource_eq_none h1 h2]

theorem noticeRoute_sets (holds : s.holdsLease src = true) (destination : Source) :
    noticeRoute src [destination.code] s =
      succeed { s with notices := { s.notices with destination } }
        (s.notices.destination.code :: { s.notices with destination }.summary) := by
  simp only [noticeRoute, holds, if_true, readSource_code]

end Commands

section Rows
variable {i : Instr} {run : Source → List Byte → State → Execution} {s : State} {src : Source} {record : CommandRecord}

theorem setNotices_frame (s : State) (q : NoticeQueue) : SameBut s { s with notices := q } [.notices] := by
  intro piece hp
  cases piece <;> first | rfl | exact absurd (by decide) hp

/-- A command that does nothing but to replace the notice queue, and answers with the new queue's summary last. -/
theorem answered_of_notices {q : NoticeQueue} {args results : List Byte}
    (answers : exec i s = .next (answerOf run s src record)) (arguments : record.arguments = args)
    (replaces : run src args (s.takeRecord src) =
      succeed { s.takeRecord src with notices := q } (results ++ q.summary)) :
    ∃ b, exec i s = .next (b.answered src record .ok (results ++ b.notices.summary)) ∧
      SameBut (s.takeRecord src) b [.notices] ∧ b.notices = q := by
  refine ⟨{ s.takeRecord src with notices := q }, ?_, setNotices_frame _ q, rfl⟩
  rw [answers, answerOf, arguments, replaces]; rfl

/-- A lease command of fixed length makes the three checks common to all in their order (R155, R181). -/
theorem leaseChecks_of_badArg {code : Byte} {n : Nat} {outOfRange : List Byte → Prop}
    (checks : LeaseChecks i code n fun _ => False)
    (answers : ∀ {s src record}, Serves s src record code → exec i s = .next (answerOf run s src record))
    (badArg : ∀ {src args s}, s.holdsLease src = true → args.length = n → outOfRange args →
      run src args s = refuse s .badArg []) :
    LeaseChecks i code n outOfRange :=
  fun _ _ _ serves => ⟨checks.needsLease serves, checks.needsLength serves, fun holder length out =>
    refuses_of_run (answers serves) (badArg (holdsLease_takeRecord holder) length out)⟩

end Rows

/-- Settles O43: the queue without the notices up to the named one, before and after NOTICES_LOST is delivered. -/
theorem noticeAckTakesNoticesAway : Obligations.NoticeAckTakesNoticesAway := by
  refine ⟨fun s src record serves length => refuses_of_run (exec_noticeAck serves) (noticeAck_badLength length),
    fun s src record sequence serves arguments low => ⟨fun older n newer held named first => ?_, fun unknown => ?_⟩⟩
  · subst named
    have notices := s.takeRecord_notices src
    obtain ⟨b, answered, frame, after⟩ := answered_of_notices (results := [byte (older.length + 1)])
      (exec_noticeAck serves) arguments (noticeAck_removes low (notices ▸ held) first)
    rw [notices] at after
    refine ⟨b, answered, frame, fun ⟨lost, room⟩ => ?_, fun undelivered => ?_⟩
    · exact after.trans (NoticeQueue.deliverLost_of_room lost (NoticeQueue.hasRoom_iff.2 room))
    · exact after.trans (NoticeQueue.deliverLost_of_not fun ⟨lost, room⟩ =>
        undelivered ⟨lost, NoticeQueue.hasRoom_iff.1 room⟩)
  · have refused := noticeAck_badArg (s := s.takeRecord src) (src := src) low (by rwa [s.takeRecord_notices src])
    rw [s.takeRecord_notices src] at refused
    exact refuses_of_run (exec_noticeAck serves) (arguments ▸ refused)

/-- Settles O44: each command replaces the queue by one that differs in a single field. -/
theorem noticeQueueIsCommanded : Obligations.NoticeQueueIsCommanded := by
  refine ⟨leaseChecks_of_badArg leaseChecks_of_lists exec_noticeMask noticeMask_badArg,
    leaseChecks_of_badArg leaseChecks_of_lists exec_noticeRoute fun holds _ => noticeRoute_badArg holds,
    fun s src record => ?_⟩
  rw [← s.takeRecord_notices src]
  refine ⟨fun serves arguments => ?_, fun mask serves arguments holder => ?_,
    fun destination serves arguments holder => ?_, fun serves long => ?_, NoticeQueue.summary_eq⟩
  · exact answered_of_notices (results := [_]) (exec_noticeReplay serves) arguments noticeReplay_replays
  · exact answered_of_notices (exec_noticeMask serves) arguments (noticeMask_sets (holdsLease_takeRecord holder) mask)
  · exact answered_of_notices (results := [_]) (exec_noticeRoute serves) arguments
      (noticeRoute_sets (holdsLease_takeRecord holder) destination)
  · exact refuses_of_run (exec_noticeReplay serves) (noticeReplay_badLength long)

end Sys2Proof.Machine
end

section
/-! The statement about the sensor packet header (R183): what each field and each byte of a header reads as, first from
the header's number, then from the fields it was packed from. -/

namespace Sys2Proof.Machine

-- One theorem after another, as in the model's tests.
set_option Elab.async false

/-! ## The fields and bytes of a header, from its number -/

theorem headerChannel_val (header : Header) : (headerChannel header).val = header.toNat % 16 := by
  simp [headerChannel]

theorem headerCode_eq (header : Header) : headerCode header = header.toNat / 16 % 64 := by
  simp [headerCode, Nat.shiftRight_eq_div_pow]

theorem headerLength_eq (header : Header) : headerLength header = header.toNat / 1024 % 16384 := by
  simp [headerLength, Nat.shiftRight_eq_div_pow]

theorem headerByte_eq_iff {header : Header} {k : Nat} {b : Byte} :
    headerByte header k = b ↔ header.toNat / 2 ^ (8 * k) % 256 = b.toNat := by
  simp [headerByte, BitVec.toNat_eq, Nat.shiftRight_eq_div_pow]

theorem headerPasses_iff {header : Header} : headerPasses header = true ↔ headerLength header ≤ 8192 ∧
    headerCheck [headerByte header 0, headerByte header 1, headerByte header 2] = headerByte header 3 := by
  rw [headerPasses, Bool.and_eq_true, beq_iff_eq, decide_eq_true_iff, and_comm]

/-! ## The fields and bytes of a header, from the fields packed into it -/

section Packed
variable {header : Header} {channel : Fin 16} {code length : Nat} {check : Byte}

/-- The four fields of R183 do not overlap and fill 32 bits, so the sum that packs them does not wrap. -/
theorem packedHeader_toNat (codeFits : code < 64) (lengthFits : length < 16384) :
    (BitVec.ofNat 32 (channel.val + 16 * code + 1024 * length + 16777216 * check.toNat)).toNat =
      channel.val + 16 * code + 1024 * length + 16777216 * check.toNat := by
  have checkFits := check.isLt
  rw [BitVec.toNat_ofNat, Nat.mod_eq_of_lt (by omega)]

/-- The fields of a header whose number packs them (R183). -/
theorem headerFields_of_packed (codeFits : code < 64) (lengthFits : length < 16384)
    (packed : header.toNat = channel.val + 16 * code + 1024 * length + 16777216 * check.toNat) :
    headerFields header = { channel, code, length } := by
  have channelReads : headerChannel header = channel := Fin.ext (by rw [headerChannel_val, packed]; omega)
  have codeReads : headerCode header = code := by rw [headerCode_eq, packed]; omega
  have lengthReads : headerLength header = length := by rw [headerLength_eq, packed]; omega
  rw [headerFields, channelReads, codeReads, lengthReads]

/-- The bytes of a header whose number packs the fields, in the order in which they are sent: the code lies across
bytes 0 and 1, the length across bytes 1 and 2, and byte 3 is the header check (R183). -/
theorem headerBytes_of_packed (codeFits : code < 64) (lengthFits : length < 16384)
    (packed : header.toNat = channel.val + 16 * code + 1024 * length + 16777216 * check.toNat) :
    headerByte header 0 = byte (channel.val + 16 * code) ∧
    headerByte header 1 = byte (code / 16 + 4 * length) ∧
    headerByte header 2 = byte (length / 64) ∧
    headerByte header 3 = check := by
  have checkFits := check.isLt
  simp only [headerByte_eq_iff, packed, byte_toNat]
  refine ⟨?_, ?_, ?_, ?_⟩ <;> omega

end Packed

/-- Settles O15: every field and byte is read from the number the fields are packed into. -/
theorem sensorHeaderFieldsReadBack : Obligations.SensorHeaderFieldsReadBack := by
  intro channel code length check codeFits lengthFits header
  have packed := packedHeader_toNat (channel := channel) (check := check) codeFits lengthFits
  have fields := headerFields_of_packed codeFits lengthFits packed
  obtain ⟨byte0, byte1, byte2, byte3⟩ := headerBytes_of_packed codeFits lengthFits packed
  refine ⟨fields, byte0, byte1, byte2, byte3, ?_⟩
  have lengthReads : headerLength header = length := congrArg PacketHeader.length fields
  rw [headerPasses_iff, lengthReads, byte0, byte1, byte2, byte3]

end Sys2Proof.Machine
end

section
/-! The statements about the queue of waiting commands: the front command runs on its rest, and every command answers a
next state that has the queue as it was (log entries 1 and 8). -/

namespace Sys2Proof.Machine

/-! ## The step -/

/-- Settles O1: the two branches of the step. -/
theorem frontCommandRuns : Obligations.FrontCommandRuns := by
  refine ⟨fun c rest s => rfl, fun s empty => ?_⟩
  simp only [step, empty]

/-! ## What leaves the waiting commands -/

/-- An outcome is a next state whose waiting commands are those of `s`. -/
def AnswersWith (s : State) (outcome : Host.Outcome State Fault Refusal) : Prop :=
  ∃ t, outcome = .next t ∧ t.pending = s.pending

section Operations
variable (s : State)

@[simp] theorem State.finish_pending : s.finish.pending = s.pending := (finish_frame s).pending

@[simp] theorem State.judgeRecord_pending (src : Source) (covered check : List Byte) :
    (s.judgeRecord src covered check).pending = s.pending := by
  cases src <;> exact (judgeRecord_frame s _ covered check).pending

/-- A part reset keeps the queue, which is the environment's (log entry 1). -/
@[simp] theorem State.partReset_pending (cause : ResetCause) (epoch : Nat) (straps : Straps) :
    (s.partReset cause epoch straps).pending = s.pending := rfl

@[simp] theorem State.resetAfterReply_pending (src : Source) (straps : Straps) :
    (s.resetAfterReply src straps).pending = s.pending := by
  unfold State.resetAfterReply
  repeat' split
  all_goals rfl

/-! ### The control port and the timers of the executor -/

theorem State.character_pending (character : Byte) (stopBit : Bool) :
    (s.character character stopBit).pending = s.pending := by
  have ended : s.endReception.pending = s.pending := rfl
  unfold State.character State.idleCharacter State.recordCharacter State.discardFraming State.completeRecord
  dsimp only
  repeat' split
  all_goals first
    | rfl
    | simp [ended]

theorem State.completePort_pending (straps : Straps) : (s.completePort straps).pending = s.pending := by
  unfold State.completePort
  dsimp only
  split
  · rfl
  · simp
  · rfl

theorem State.expireLease_pending : s.expireLease.pending = s.pending := by
  unfold State.expireLease
  split
  · simp
  · rfl

theorem State.expireGrace_pending (straps : Straps) : (s.expireGrace straps).pending = s.pending := by
  unfold State.expireGrace
  split <;> rfl

/-! ### The trunk -/

theorem State.takeGrant_pending (rest : List Byte) : (s.takeGrant rest).pending = s.pending := by
  unfold State.takeGrant
  repeat' split
  all_goals rfl

theorem State.takeRemote_pending (rest : List Byte) : (s.takeRemote rest).pending = s.pending := by
  unfold State.takeRemote
  dsimp only
  repeat' split
  all_goals simp

theorem State.acknowledge_pending (rest : List Byte) : (s.acknowledge rest).pending = s.pending := by
  unfold State.acknowledge
  repeat' split
  all_goals rfl

theorem State.recordSent_pending : s.recordSent.pending = s.pending := by
  unfold State.recordSent
  split <;> rfl

theorem State.completeTrunk_pending (straps : Straps) : (s.completeTrunk straps).pending = s.pending := by
  unfold State.completeTrunk
  dsimp only
  split
  · rfl
  · exact State.recordSent_pending _
  · simp
  · rfl

/-! ### The operations of the commands -/

theorem State.setPortMode_pending (p : Fin 4) (enable : Bool) (lanes : Lanes) :
    (s.setPortMode p enable lanes).pending = s.pending := by
  by_cases off : (s.port p).state = .off
  · obtain ⟨frame, -⟩ := setPortMode_off (enable := enable) (lanes := lanes) off
    exact frame.pending
  · cases enable
    · obtain ⟨frame, -⟩ := setPortMode_disabled (lanes := lanes) off
      exact frame.pending
    · rw [setPortMode_enabled off]

theorem State.disableRoute_pending (r : Fin 64) : (s.disableRoute r).pending = s.pending := by
  obtain ⟨frame, -⟩ := disableRoute_spec s r
  exact frame.pending

theorem State.clearSet_pending (set : CounterScope) : (s.clearSet set).pending = s.pending := by
  cases set <;> simp [State.clearSet]

theorem State.haltLink_pending : s.haltLink.pending = s.pending := by
  unfold State.haltLink
  dsimp only
  split <;> rfl

end Operations

section Gates
variable {s t : State} {r : Fin 64}

theorem holdGate_pending (h : holdGate s r = some t) : t.pending = s.pending := by
  unfold holdGate at h
  repeat' split at h
  all_goals first
    | exact Option.some.inj h ▸ rfl
    | exact Option.some.inj h ▸ (shutGate_frame s r _ _).pending
    | cases h

theorem releaseGate_pending (h : releaseGate s r = some t) : t.pending = s.pending := by
  unfold releaseGate at h
  split at h
  · cases h
  · exact Option.some.inj h ▸ rfl

theorem stepGate_pending (h : stepGate s r = some t) : t.pending = s.pending := by
  unfold stepGate at h
  split at h
  · exact Option.some.inj h ▸ rfl
  · cases h

end Gates

/-! ## Commands -/

/-- A command leaves the waiting commands. -/
def KeepsPending (run : Source → List Byte → State → Execution) : Prop :=
  ∀ src args s, (run src args s).state.pending = s.pending

/-- The commands that change single fields of the part. -/
theorem beside_keeps_pending {run : Source → List Byte → State → Execution} (h : run ∈ commandsBesideTheTrunk) :
    KeepsPending run := by
  intro src args s
  simp only [commandsBesideTheTrunk, List.mem_cons, List.not_mem_nil, or_false] at h
  rcases h with rfl | rfl | rfl | rfl | rfl | rfl | rfl | rfl | rfl | rfl | rfl | rfl | rfl | rfl | rfl | rfl | rfl |
    rfl | rfl
  all_goals
    simp only [unknownCommand, identify, claim, drop, leaseTime, resetPart, portStatus, routeRead, routeWrite,
      writeRoute, routeEnable, tableScan, holdpointSet, holdpointClear, poolStatus, trunkStatus, noticeAck,
      noticeReplay, noticeMask, noticeRoute]
    repeat' split
    all_goals rfl

theorem portSet_keeps_pending : KeepsPending portSet := fun src args s => by
  unfold portSet
  repeat' split
  all_goals first
    | rfl
    | exact s.setPortMode_pending _ _ _

theorem routeDisable_keeps_pending : KeepsPending routeDisable := fun src args s => by
  unfold routeDisable
  dsimp only
  repeat' split
  all_goals first
    | rfl
    | exact s.disableRoute_pending _

/-- HOLD, RELEASE and STEP do what their gate move does (R88). -/
theorem gateCommand_keeps_pending {move : State → Fin 64 → Option State}
    (h : ∀ s r t, move s r = some t → t.pending = s.pending) : KeepsPending (gateCommand move) :=
  fun src args s => by
    unfold gateCommand
    dsimp only
    repeat' split
    all_goals first
      | rfl
      | exact h s _ _ ‹_›

theorem countersRead_keeps_pending : KeepsPending countersRead := fun src args s => by
  unfold countersRead
  repeat' split
  all_goals first
    | rfl
    | exact s.clearSet_pending _

theorem trunkHalt_keeps_pending : KeepsPending trunkHalt := fun src args s => by
  unfold trunkHalt
  repeat' split
  · exact s.haltLink_pending
  all_goals rfl

theorem trunkStart_keeps_pending : KeepsPending trunkStart := fun src args s => by
  unfold trunkStart
  repeat' split
  all_goals rfl

theorem trunkRetrain_keeps_pending : KeepsPending trunkRetrain := fun src args s => by
  unfold trunkRetrain
  repeat' split
  all_goals rfl

/-! ## Rows -/

section Rows
variable {s effect : State} {possible : Bool} {run : Source → List Byte → State → Execution} {codes : Byte → Bool}

/-- An event answers, possible or not, when its effect leaves the waiting commands. -/
theorem event_answersWith (kept : effect.pending = s.pending) : AnswersWith s (event s possible effect) := by
  refine ⟨_, event_eq s possible effect, ?_⟩
  split
  · exact effect.finish_pending.trans kept
  · rfl

/-- An execution row answers, whether it takes a record or not. -/
theorem serve_answersWith (keeps : KeepsPending run) : AnswersWith s (s.serve codes run) := by
  unfold State.serve
  split
  · next src record _ =>
    have ran := (keeps src record.arguments (s.takeRecord src)).trans (s.takeRecord_pending src)
    exact event_answersWith (by simpa [State.execute, State.reply] using ran)
  · exact event_answersWith rfl

theorem exec_answersWith (c : Instr) (s : State) : AnswersWith s (exec c s) := by
  cases c with
  | alignmentAchieved p => exact event_answersWith (s.modifyPort_pending p _)
  | alignmentLost p => exact event_answersWith (alignmentLost_frame s p).pending
  | headerEvent p header => exact event_answersWith (headerArrives_frame s p header).pending
  | bytesReceived p bytes => exact event_answersWith (bytesArrive_frame s p bytes).pending
  | endEvent p => exact event_answersWith (packetEnds_frame s p).pending
  | frameIdleExpiry r => exact event_answersWith (endIngressFrame_frame s r .idle).pending
  | characterReceived character stopBit => exact event_answersWith (s.character_pending character stopBit)
  | controlPortCompletion straps => exact event_answersWith (s.completePort_pending straps)
  | creditGrant rest => exact event_answersWith (s.takeGrant_pending rest)
  | acknowledgement rest => exact event_answersWith (s.acknowledge_pending rest)
  | transmissionCompletion straps => exact event_answersWith (s.completeTrunk_pending straps)
  | leaseExpiry => exact event_answersWith s.expireLease_pending
  | graceExpiry straps => exact event_answersWith (s.expireGrace_pending straps)
  | remoteCommandRecord rest =>
    refine event_answersWith ?_
    split
    · exact s.takeRemote_pending rest
    · rfl
  | signalLoss =>
    refine event_answersWith ?_
    split <;> rfl
  | gapAbort | unknownReverseRecord _ | reverseAlignment | trainTimerExpiry | retryTimerExpiry | stallExpiry =>
    exact event_answersWith rfl
  | unknownCommand | identify | claim | drop | leaseTime | resetPart | portStatus | routeRead | routeWrite
  | routeEnable | tableScan | holdpointSet | holdpointClear | poolStatus | trunkStatus | noticeAck | noticeReplay
  | noticeMask | noticeRoute =>
    simp only [exec]
    refine serve_answersWith (beside_keeps_pending ?_)
    simp [commandsBesideTheTrunk]
  | portSet =>
    simp only [exec]
    exact serve_answersWith portSet_keeps_pending
  | routeDisable =>
    simp only [exec]
    exact serve_answersWith routeDisable_keeps_pending
  | hold =>
    simp only [exec]
    exact serve_answersWith (gateCommand_keeps_pending fun _ _ _ => holdGate_pending)
  | release =>
    simp only [exec]
    exact serve_answersWith (gateCommand_keeps_pending fun _ _ _ => releaseGate_pending)
  | step =>
    simp only [exec]
    exact serve_answersWith (gateCommand_keeps_pending fun _ _ _ => stepGate_pending)
  | trunkHalt =>
    simp only [exec]
    exact serve_answersWith trunkHalt_keeps_pending
  | trunkStart =>
    simp only [exec]
    exact serve_answersWith trunkStart_keeps_pending
  | trunkRetrain =>
    simp only [exec]
    exact serve_answersWith trunkRetrain_keeps_pending
  | countersRead =>
    simp only [exec]
    exact serve_answersWith countersRead_keeps_pending
  | powerOn straps resetLow =>
    cases resetLow
    · exact ⟨_, rfl, (s.partReset .powerOn 1 straps).finish_pending⟩
    · exact ⟨_, rfl, rfl⟩
  | resetNAsserted =>
    refine ⟨_, rfl, ?_⟩
    split <;> rfl
  | resetNReleased straps =>
    simp only [exec, execResetNReleased]
    split
    · exact ⟨s, rfl, rfl⟩
    · exact ⟨_, rfl, (s.partReset .pin s.nextEpoch straps).finish_pending⟩
    · exact ⟨_, rfl, (s.partReset .powerOn 1 straps).finish_pending⟩

end Rows

/-- Settles O2: events and execution rows answer whatever the state, and so do power-on and the two edges of RESET_N. -/
theorem everyCommandAnswers : Obligations.EveryCommandAnswers := exec_answersWith

end Sys2Proof.Machine
end
